-- ==== Sys2Proof/Word.lean ====
section
/-! DEFINITION. The widths of the block's data: bytes, 16-bit fields and 1-based track numbers (00_scope.md R11, 10_state.md R43). -/

namespace Sys2Proof

/-- A byte: an unsigned 8-bit value (R11). -/
abbrev Byte := BitVec 8

/-- A 16-bit field or register (R11, R43). -/
abbrev Half := BitVec 16

/-- The 17 value bits of a voice-table entry: a 1-based track number 1..65536 (R27, R43). -/
abbrev TrackNo := BitVec 17

end Sys2Proof
end

