-- ==== Sys2Proof/Config.lean ====
section
/-! DEFINITION. The configuration record of 00_scope.md R5, its well-formedness (R6), its derived constants (R7) and its default. -/

namespace Sys2Proof

/-- The configuration `cfg`, fixed when an instance is constructed (00_scope.md R5, 10_state.md R41).
The fields of the widths R5 gives that are counts are natural numbers, bounded by `Cfg.wf`. -/
structure Cfg where
  /-- first start-of-message byte -/
  som1 : Byte
  /-- second start-of-message byte -/
  som2 : Byte
  /-- end-of-message byte -/
  eom : Byte
  /-- `MAX_LEN`, the maximum frame length in bytes -/
  maxLen : Nat
  /-- `NUM_VOICES`, the number of voice-table slots -/
  numVoices : Nat
  /-- `VERSION_MAX`, the capacity of the version buffer -/
  versionMax : Nat
  /-- `PLAYING_CAP`, the capacity of the currently-playing list -/
  playingCap : Nat
  opGetVersion : Byte
  opGetSysInfo : Byte
  opTrackControl : Byte
  opStopAll : Byte
  opMasterVolume : Byte
  opGetStatus : Byte
  opTrackVolume : Byte
  opAmpPower : Byte
  opTrackFade : Byte
  opResumeAllSync : Byte
  opSamplerateOffset : Byte
  opSetReporting : Byte
  opSetTriggerBank : Byte
  opTrackControlEx : Byte
  opRspVersionString : Byte
  opRspSystemInfo : Byte
  opRspStatus : Byte
  opRspTrackReport : Byte
  trkPlaySolo : Byte
  trkPlayPoly : Byte
  trkPause : Byte
  trkResume : Byte
  trkStop : Byte
  trkLoopOn : Byte
  trkLoopOff : Byte
  trkLoad : Byte
  /-- `XFADE_ATTEN`, the cross-fade's deep attenuation (R131) -/
  xfadeAtten : Half
  /-- `XFADE_START_CODE`, the track-control code that starts the target (R131) -/
  xfadeStartCode : Byte
  /-- `XFADE_OUT_STOP`, the stop byte of the fade-out (R131; assumption 10) -/
  xfadeOutStop : Byte
  /-- `QUERY_TIMEOUT`, abstract and OPEN; no rule reads it (R136, R167; assumption 18) -/
  queryTimeout : Option Nat
  deriving DecidableEq, Repr

/-- `MIN_LEN`: the length of a frame with no payload (R7). -/
def minLen : Nat := 5

/-- `RXBUF_CAP`: the bytes from OPCODE to the last payload byte (R7). -/
def Cfg.rxbufCap (c : Cfg) : Nat := c.maxLen - 4

/-- The fourteen command opcodes, in the order of R64's table. -/
def Cfg.commandOpcodes (c : Cfg) : List Byte :=
  [c.opGetVersion, c.opGetSysInfo, c.opTrackControl, c.opStopAll, c.opMasterVolume, c.opGetStatus,
   c.opTrackVolume, c.opAmpPower, c.opTrackFade, c.opResumeAllSync, c.opSamplerateOffset,
   c.opSetReporting, c.opSetTriggerBank, c.opTrackControlEx]

/-- The four response opcodes, in the order of R64's table. -/
def Cfg.responseOpcodes (c : Cfg) : List Byte :=
  [c.opRspVersionString, c.opRspSystemInfo, c.opRspStatus, c.opRspTrackReport]

/-- A well-formed configuration (R6). The upper bounds on the two capacities are the 8-bit widths of
R5's table (assumption 17). No constraint stands between marker bytes, nor between the command and
the response opcode sets (R68). -/
abbrev Cfg.wf (c : Cfg) : Prop :=
  12 ≤ c.maxLen ∧ c.maxLen ≤ 255 ∧
  1 ≤ c.numVoices ∧ c.numVoices ≤ 256 ∧
  1 ≤ c.versionMax ∧ c.versionMax ≤ 255 ∧
  1 ≤ c.playingCap ∧ c.playingCap ≤ 255 ∧
  c.responseOpcodes.Nodup ∧ c.commandOpcodes.Nodup

/-- The configuration of the spec's defaults (R5, R64, R116, R131) and, for the two OPEN sizes, of its
test vectors (95_test_vectors.md section 0). The values the spec marks as general knowledge are so
here too (assumption 1). -/
def Cfg.default : Cfg where
  som1 := 0xF0
  som2 := 0xAA
  eom := 0x55
  maxLen := 32
  numVoices := 14
  versionMax := 20
  playingCap := 8
  opGetVersion := 0x01
  opGetSysInfo := 0x02
  opTrackControl := 0x03
  opStopAll := 0x04
  opMasterVolume := 0x05
  opGetStatus := 0x07
  opTrackVolume := 0x08
  opAmpPower := 0x09
  opTrackFade := 0x0A
  opResumeAllSync := 0x0B
  opSamplerateOffset := 0x0C
  opSetReporting := 0x0D
  opSetTriggerBank := 0x0E
  opTrackControlEx := 0x11
  opRspVersionString := 0x81
  opRspSystemInfo := 0x82
  opRspStatus := 0x83
  opRspTrackReport := 0x84
  trkPlaySolo := 0x00
  trkPlayPoly := 0x01
  trkPause := 0x02
  trkResume := 0x03
  trkStop := 0x04
  trkLoopOn := 0x05
  trkLoopOff := 0x06
  trkLoad := 0x07
  xfadeAtten := 0xFFD8
  xfadeStartCode := 0x01
  xfadeOutStop := 0x01
  queryTimeout := none

end Sys2Proof
end

