-- ==== Sys2Proof/Syntax.lean ====
section
/-! DEFINITION. The frames of spec/opcode_table.json as syntax: one constructor per row. -/

namespace Sys2Proof

/-- The direction of a frame: the block emits commands and acts on responses (30_encoding.md R68). -/
inductive Direction where
  | command
  | response
  deriving DecidableEq, Repr

/-- An operand of type `bool8`: a truth value, or an integer, which is written as `u8(v)` (R63). -/
inductive Bool8 where
  | bool (v : Bool)
  | int (v : Int)
  deriving DecidableEq, Repr

/-- A frame the block encodes or dispatches. A command's operands are mathematical integers, narrowed
when they are encoded (R63, R71); a response's operand is its payload, of whatever length the frame
carried (R67, R112, R113; assumption 25). -/
inductive Instr where
  | trackControl (code track : Int)
  | trackControlEx (code track : Int) (lock : Bool8)
  | trackVolume (track gain : Int)
  | trackFade (track gain timeMs : Int) (stop : Bool8)
  | masterVolume (gain : Int)
  | samplerateOffset (offset : Int)
  | stopAll
  | resumeAllSync
  | getVersion
  | getSysInfo
  | getStatus
  | ampPower (enable : Bool8)
  | setReporting (enable : Bool8)
  | setTriggerBank (bank : Int)
  | rspVersionString (payload : List Byte)
  | rspSystemInfo (payload : List Byte)
  | rspStatus (payload : List Byte)
  | rspTrackReport (payload : List Byte)
  deriving DecidableEq, Repr

/-- The direction column of the opcode table. -/
def Instr.direction : Instr → Direction
  | .trackControl _ _ => .command
  | .trackControlEx _ _ _ => .command
  | .trackVolume _ _ => .command
  | .trackFade _ _ _ _ => .command
  | .masterVolume _ => .command
  | .samplerateOffset _ => .command
  | .stopAll => .command
  | .resumeAllSync => .command
  | .getVersion => .command
  | .getSysInfo => .command
  | .getStatus => .command
  | .ampPower _ => .command
  | .setReporting _ => .command
  | .setTriggerBank _ => .command
  | .rspVersionString _ => .response
  | .rspSystemInfo _ => .response
  | .rspStatus _ => .response
  | .rspTrackReport _ => .response

end Sys2Proof
end

