-- ==== Sys2Proof/Machine/Operands.lean ====
section
/-! DEFINITION. Operand forms: narrowing, byte order and the field packers (00_scope.md R11, 30_encoding.md
R63, 40_frame_codec.md R82). -/

namespace Sys2Proof

/-- `u8(v) = v mod 256` (R11). -/
def u8 (v : Int) : Byte := BitVec.ofInt 8 v

/-- `u16(v) = v mod 65536` (R11). -/
def u16 (v : Int) : Half := BitVec.ofInt 16 v

/-- `lo8(w) = w[7:0]` (R11). -/
def lo8 (w : Half) : Byte := w.extractLsb' 0 8

/-- `hi8(w) = w[15:8]` (R11). -/
def hi8 (w : Half) : Byte := w.extractLsb' 8 8

/-- `LE16(lo, hi)`: the byte at the lower frame index is bits 7..0 (R11, 20_memory.md R47). -/
def le16 (lo hi : Byte) : Half := lo.setWidth 16 ||| (hi.setWidth 16 <<< 8)

/-- The packer `P8` (R82). -/
def p8 (v : Int) : List Byte := [u8 v]

/-- The packer `P16` (R82). -/
def p16 (v : Int) : List Byte := [lo8 (u16 v), hi8 (u16 v)]

/-- The byte of a `bool8` operand: 1 or 0 for a truth value, `u8(v)` for an integer (R63, R82). -/
def Bool8.byte : Bool8 → Byte
  | .bool true => 1
  | .bool false => 0
  | .int v => u8 v

/-- The packer `PBool` (R82). -/
def pBool (v : Bool8) : List Byte := [v.byte]

/-- A one-byte field read back (R63). -/
def readU8 (b : Byte) : Int := b.toNat

/-- A two-byte field read back with `LE16` (R63). -/
def readU16 (b0 b1 : Byte) : Int := (le16 b0 b1).toNat

/-- A `bool8` field read back: 0 false, 1 true, any other byte kept as the integer it is, which is
nonzero and so counts as true (R63; assumption 9). -/
def readBool8 (b : Byte) : Bool8 :=
  if b = 0 then .bool false else if b = 1 then .bool true else .int b.toNat

/-- Whether a `bool8` byte means true: "0 false, nonzero true" (R63). -/
def truthOf (b : Byte) : Bool := b ≠ 0

/-- The `u16` entries of a status payload: whole pairs, an odd trailing byte left out (R110). -/
def le16List : List Byte → List Half
  | b0 :: b1 :: rest => le16 b0 b1 :: le16List rest
  | [_] => []
  | [] => []

end Sys2Proof
end

