-- ==== Sys2Proof/Machine/Codec.lean ====
section
/-! DEFINITION. The Frame Codec's pure functions `Encode` and `Validate` (40_frame_codec.md R80 to R85). -/

namespace Sys2Proof

/-- The cause codes of a malformation (60_exceptions.md R140). -/
inductive Malformation where
  | badSom1
  | badSom2
  | badLen
  | badEom
  | lenMismatch
  deriving DecidableEq, Repr

/-- The frame of an opcode and a payload, in frame-index order (30_encoding.md R60). -/
def frame (c : Cfg) (op : Byte) (p : List Byte) : List Byte :=
  [c.som1, c.som2, BitVec.ofNat 8 (5 + p.length), op] ++ p ++ [c.eom]

/-- `Encode(op, p)`: the frame, or none for `EncodeTooLong` (R80, R81). -/
def encodeFrame (c : Cfg) (op : Byte) (p : List Byte) : Option (List Byte) :=
  if 5 + p.length > c.maxLen then none else some (frame c op p)

/-- `Validate(r)`: the opcode and payload of a whole frame, or the first check that fails, in the order
of R84 and R85. -/
def validate (c : Cfg) (r : List Byte) : Except Malformation (Byte × List Byte) :=
  match r with
  | [] => .error .badSom1
  | b0 :: t1 =>
    if b0 ≠ c.som1 then .error .badSom1 else
    match t1 with
    | [] => .error .badSom2
    | b1 :: t2 =>
      if b1 ≠ c.som2 then .error .badSom2 else
      match t2 with
      | [] => .error .badLen
      | l :: _ =>
        if l.toNat < minLen ∨ l.toNat > c.maxLen then .error .badLen else
        if r.length < l.toNat then .error .lenMismatch else
        if r[l.toNat - 1]? ≠ some c.eom then .error .badEom else
        if r.length > l.toNat then .error .lenMismatch else
        .ok (r.getD 3 0, (r.take (l.toNat - 1)).drop 4)

end Sys2Proof
end

