-- ==== Sys2Proof/WellFormed.lean ====
section
/-! DEFINITION. Well-formed instructions: those whose operands are already what their wire fields can
carry (30_encoding.md R63, R65, R67). The encoder itself takes every operand (R71). -/

namespace Sys2Proof

/-- `v` is the value of a one-byte field. -/
abbrev fitsU8 (v : Int) : Prop := 0 ≤ v ∧ v < 256

/-- `v` is the value of a two-byte field, as `LE16` reads it (R63). -/
abbrev fitsU16 (v : Int) : Prop := 0 ≤ v ∧ v < 65536

/-- A `bool8` operand in the form its byte is read back in: 0 and 1 are the truth values, any other
byte is the integer (assumption 9). -/
def Bool8.fits : Bool8 → Bool
  | .bool _ => true
  | .int v => decide (2 ≤ v ∧ v < 256)

/-- A payload of at most `MAX_LEN - 5` bytes (R61). -/
abbrev fitsPayload (c : Cfg) (p : List Byte) : Prop := 5 + p.length ≤ c.maxLen

/-- Every operand of the instruction fits its wire field (R65, R67). -/
def Instr.wf (c : Cfg) : Instr → Bool
  | .trackControl code track => decide (fitsU8 code) && decide (fitsU16 track)
  | .trackControlEx code track lock => decide (fitsU8 code) && decide (fitsU16 track) && lock.fits
  | .trackVolume track gain => decide (fitsU16 track) && decide (fitsU16 gain)
  | .trackFade track gain timeMs stop =>
    decide (fitsU16 track) && decide (fitsU16 gain) && decide (fitsU16 timeMs) && stop.fits
  | .masterVolume gain => decide (fitsU16 gain)
  | .samplerateOffset offset => decide (fitsU16 offset)
  | .stopAll => true
  | .resumeAllSync => true
  | .getVersion => true
  | .getSysInfo => true
  | .getStatus => true
  | .ampPower enable => enable.fits
  | .setReporting enable => enable.fits
  | .setTriggerBank bank => decide (fitsU8 bank)
  | .rspVersionString p => decide (fitsPayload c p)
  | .rspSystemInfo p => decide (fitsPayload c p)
  | .rspStatus p => decide (fitsPayload c p)
  | .rspTrackReport p => decide (fitsPayload c p)

end Sys2Proof
end

