-- ==== Sys2Proof/Decode.lean ====
section
/-! DEFINITION. The decoder for either direction (30_encoding.md R74), total on any bytes, and after it the
encoder, written from the payload layouts of R65 and R67. -/

namespace Sys2Proof

/-- Why a byte list decodes to no instruction. -/
inductive DecodeError where
  /-- not a frame (R70): `Validate`'s cause -/
  | malformed (cause : Malformation)
  /-- a frame whose opcode is no row of this direction (R69) -/
  | unknownOpcode (op : Byte)
  /-- a command row's opcode with a payload of another length than its layout (R65; assumption 20) -/
  | payloadLength (op : Byte) (n : Nat)
  deriving DecidableEq, Repr

/-- The row of a response opcode with the payload it carried; none for an unknown opcode (R67, R69, R105).
Selection follows the order of R105. -/
def decodeResponse (c : Cfg) (op : Byte) (p : List Byte) : Option Instr :=
  if op = c.opRspVersionString then some (.rspVersionString p)
  else if op = c.opRspSystemInfo then some (.rspSystemInfo p)
  else if op = c.opRspTrackReport then some (.rspTrackReport p)
  else if op = c.opRspStatus then some (.rspStatus p)
  else none

/-- The row of a command opcode, its fields read from the payload (R65, R74). -/
def decodeCommand (c : Cfg) (op : Byte) (p : List Byte) : Except DecodeError Instr :=
  if op = c.opTrackControl then
    match p with
    | [a, t0, t1] => .ok (.trackControl (readU8 a) (readU16 t0 t1))
    | _ => .error (.payloadLength op p.length)
  else if op = c.opTrackControlEx then
    match p with
    | [a, t0, t1, k] => .ok (.trackControlEx (readU8 a) (readU16 t0 t1) (readBool8 k))
    | _ => .error (.payloadLength op p.length)
  else if op = c.opTrackVolume then
    match p with
    | [t0, t1, g0, g1] => .ok (.trackVolume (readU16 t0 t1) (readU16 g0 g1))
    | _ => .error (.payloadLength op p.length)
  else if op = c.opTrackFade then
    match p with
    | [t0, t1, g0, g1, m0, m1, x] =>
      .ok (.trackFade (readU16 t0 t1) (readU16 g0 g1) (readU16 m0 m1) (readBool8 x))
    | _ => .error (.payloadLength op p.length)
  else if op = c.opMasterVolume then
    match p with
    | [g0, g1] => .ok (.masterVolume (readU16 g0 g1))
    | _ => .error (.payloadLength op p.length)
  else if op = c.opSamplerateOffset then
    match p with
    | [o0, o1] => .ok (.samplerateOffset (readU16 o0 o1))
    | _ => .error (.payloadLength op p.length)
  else if op = c.opStopAll then
    match p with
    | [] => .ok .stopAll
    | _ => .error (.payloadLength op p.length)
  else if op = c.opResumeAllSync then
    match p with
    | [] => .ok .resumeAllSync
    | _ => .error (.payloadLength op p.length)
  else if op = c.opGetVersion then
    match p with
    | [] => .ok .getVersion
    | _ => .error (.payloadLength op p.length)
  else if op = c.opGetSysInfo then
    match p with
    | [] => .ok .getSysInfo
    | _ => .error (.payloadLength op p.length)
  else if op = c.opGetStatus then
    match p with
    | [] => .ok .getStatus
    | _ => .error (.payloadLength op p.length)
  else if op = c.opAmpPower then
    match p with
    | [e] => .ok (.ampPower (readBool8 e))
    | _ => .error (.payloadLength op p.length)
  else if op = c.opSetReporting then
    match p with
    | [e] => .ok (.setReporting (readBool8 e))
    | _ => .error (.payloadLength op p.length)
  else if op = c.opSetTriggerBank then
    match p with
    | [b] => .ok (.setTriggerBank (readU8 b))
    | _ => .error (.payloadLength op p.length)
  else .error (.unknownOpcode op)

/-- The decoder of R74: the frame checks, then the row of the opcode byte in the given direction. -/
def decode (c : Cfg) (d : Direction) (bs : List Byte) : Except DecodeError Instr :=
  match validate c bs with
  | .error cause => .error (.malformed cause)
  | .ok (op, p) =>
    match d with
    | .command => decodeCommand c op p
    | .response =>
      match decodeResponse c op p with
      | some i => .ok i
      | none => .error (.unknownOpcode op)

/-- The `cfg` opcode of a row (`opcode_parameter` of the table, R64). -/
def opcodeOf (c : Cfg) : Instr → Byte
  | .trackControl _ _ => c.opTrackControl
  | .trackControlEx _ _ _ => c.opTrackControlEx
  | .trackVolume _ _ => c.opTrackVolume
  | .trackFade _ _ _ _ => c.opTrackFade
  | .masterVolume _ => c.opMasterVolume
  | .samplerateOffset _ => c.opSamplerateOffset
  | .stopAll => c.opStopAll
  | .resumeAllSync => c.opResumeAllSync
  | .getVersion => c.opGetVersion
  | .getSysInfo => c.opGetSysInfo
  | .getStatus => c.opGetStatus
  | .ampPower _ => c.opAmpPower
  | .setReporting _ => c.opSetReporting
  | .setTriggerBank _ => c.opSetTriggerBank
  | .rspVersionString _ => c.opRspVersionString
  | .rspSystemInfo _ => c.opRspSystemInfo
  | .rspStatus _ => c.opRspStatus
  | .rspTrackReport _ => c.opRspTrackReport

/-- The payload of a row, field by field in payload order (R65, R67). -/
def payloadOf : Instr → List Byte
  | .trackControl code track => p8 code ++ p16 track
  | .trackControlEx code track lock => p8 code ++ p16 track ++ pBool lock
  | .trackVolume track gain => p16 track ++ p16 gain
  | .trackFade track gain timeMs stop => p16 track ++ p16 gain ++ p16 timeMs ++ pBool stop
  | .masterVolume gain => p16 gain
  | .samplerateOffset offset => p16 offset
  | .stopAll => []
  | .resumeAllSync => []
  | .getVersion => []
  | .getSysInfo => []
  | .getStatus => []
  | .ampPower enable => pBool enable
  | .setReporting enable => pBool enable
  | .setTriggerBank bank => p8 bank
  | .rspVersionString p => p
  | .rspSystemInfo p => p
  | .rspStatus p => p
  | .rspTrackReport p => p

/-- The whole frame of an instruction (R60). -/
def encode (c : Cfg) (i : Instr) : List Byte := frame c (opcodeOf c i) (payloadOf i)

/-- A `bool8` operand as its byte is read back (R63). -/
def Bool8.narrowed (v : Bool8) : Bool8 := readBool8 v.byte

/-- The instruction with every operand narrowed to its wire field and read back (R63, 40_frame_codec.md R86). -/
def Instr.narrowed : Instr → Instr
  | .trackControl code track => .trackControl (u8 code).toNat (u16 track).toNat
  | .trackControlEx code track lock => .trackControlEx (u8 code).toNat (u16 track).toNat lock.narrowed
  | .trackVolume track gain => .trackVolume (u16 track).toNat (u16 gain).toNat
  | .trackFade track gain timeMs stop =>
    .trackFade (u16 track).toNat (u16 gain).toNat (u16 timeMs).toNat stop.narrowed
  | .masterVolume gain => .masterVolume (u16 gain).toNat
  | .samplerateOffset offset => .samplerateOffset (u16 offset).toNat
  | .stopAll => .stopAll
  | .resumeAllSync => .resumeAllSync
  | .getVersion => .getVersion
  | .getSysInfo => .getSysInfo
  | .getStatus => .getStatus
  | .ampPower enable => .ampPower enable.narrowed
  | .setReporting enable => .setReporting enable.narrowed
  | .setTriggerBank bank => .setTriggerBank (u8 bank).toNat
  | .rspVersionString p => .rspVersionString p
  | .rspSystemInfo p => .rspSystemInfo p
  | .rspStatus p => .rspStatus p
  | .rspTrackReport p => .rspTrackReport p

/-! ### The host's table words

The opcode table numbers a row's bits from frame byte 3, the opcode byte its `match` and `mask` apply to
(R74); the markers, LEN and EOM around them follow from the configuration (assumption 7). -/

/-- The `n` low bytes of a number, least significant first. -/
def wordBytes : Nat → Nat → List Byte
  | 0, _ => []
  | n + 1, w => BitVec.ofNat 8 w :: wordBytes n (w / 256)

/-- The payload bytes of a row of fixed length, 0 for the others (R65, R67). -/
def fixedPayload (c : Cfg) (op : Byte) : Nat :=
  if op = c.opTrackControl then 3
  else if op = c.opTrackControlEx then 4
  else if op = c.opTrackVolume then 4
  else if op = c.opTrackFade then 7
  else if op = c.opMasterVolume then 2
  else if op = c.opSamplerateOffset then 2
  else if op = c.opAmpPower then 1
  else if op = c.opSetReporting then 1
  else if op = c.opSetTriggerBank then 1
  else if op = c.opRspSystemInfo then 3
  else if op = c.opRspTrackReport then 4
  else 0

/-- The frame of a table word: its bytes are the opcode and the payload, the payload filled with zero bytes
up to the row's layout; a word that is itself a whole frame is taken as it is (assumption 7). -/
def tableFrame (c : Cfg) (nbits w : Nat) : List Byte :=
  let bs := wordBytes ((nbits + 7) / 8) w
  match validate c bs with
  | .ok _ => bs
  | .error _ =>
    match bs with
    | [] => []
    | op :: p => frame c op (p ++ List.replicate (fixedPayload c op - p.length) 0)

/-- The instruction the decoder reads from a table word, under the default configuration. -/
def decodeTableWord (nbits w : Nat) : Option Instr :=
  let f := tableFrame Cfg.default nbits w
  match decode Cfg.default .command f with
  | .ok i => some i
  | .error _ =>
    match decode Cfg.default .response f with
    | .ok i => some i
    | .error _ => none

end Sys2Proof
end

