-- ==== Sys2Proof/Machine/State.lean ====
section
/-! DEFINITION. The state of one block instance (10_state.md R20): configuration, parser registers, status model;
and, beside the block, its environment as plain data: what the transport holds and will answer, what the host has yet
to issue, the observation trace and the values returned (00_scope.md R14, 10_state.md R40). -/

namespace Sys2Proof.Machine

/-- The parser state, five values (10_state.md R21). -/
inductive ParserState where
  | awaitSom1
  | awaitSom2
  | awaitLen
  | accumulatingPayload
  | awaitEom
  deriving DecidableEq, Repr

/-- The parser registers (10_state.md R21 to R25). -/
structure Parser where
  /-- `st`, the sequencer (R21) -/
  st : ParserState
  /-- `off`, the bytes of the in-progress frame consumed, SOM1 included (R22) -/
  off : BitVec 8
  /-- `len`, the accepted LEN byte, 0 while there is none (R23) -/
  len : BitVec 8
  /-- `buf`, the receive buffer of `RXBUF_CAP` bytes, OPCODE first (R24) -/
  buf : List Byte
  /-- `frame_ready` (R25) -/
  frameReady : Bool
  deriving DecidableEq, Repr

/-- The status model (10_state.md R27 to R35). -/
structure Status where
  /-- `voice`, one entry per slot: unassigned, or the 1-based track occupying it (R27) -/
  voice : List (Option TrackNo)
  /-- `version`, at most `VERSION_MAX` bytes (R28) -/
  version : List Byte
  /-- `version_rcvd` (R29) -/
  versionRcvd : Bool
  /-- `num_voices`, as the peripheral reported it (R30) -/
  numVoices : Byte
  /-- `num_tracks` (R31) -/
  numTracks : Half
  /-- `sysinfo_rcvd` (R32) -/
  sysinfoRcvd : Bool
  /-- `playing`, at most `PLAYING_CAP` entries (R33) -/
  playing : List Half
  /-- `status_rcvd` (R34) -/
  statusRcvd : Bool
  /-- `len_err`, sticky (R35) -/
  lenErr : Bool
  deriving DecidableEq, Repr

/-- The three queries (43_command_encoders.md R134). -/
inductive QueryKind where
  | version
  | sysInfo
  | status
  deriving DecidableEq, Repr

/-- What a query returns (R134, R135): the cached value, or `unavailable` on timeout (R136). -/
inductive QueryResult where
  | version (text : List Byte)
  | sysInfo (voices : Byte) (tracks : Half)
  | status (tracks : List Half)
  | unavailable
  deriving DecidableEq, Repr

/-- An event of the observation trace (00_scope.md R14). -/
inductive Event where
  | dispatched (op : Byte) (payload : List Byte)
  | ignored (op : Byte)
  | dropped (cause : Malformation)
  | lenError (op : Byte)
  | sent (bytes : List Byte)
  | sendFailed (bytes : List Byte)
  | queryDone (kind : QueryKind) (result : QueryResult)
  deriving DecidableEq, Repr

/-- What `SendFrame` returns (R115), with `Encode`'s refusal where it makes one (R81). -/
inductive SendResult where
  | ok
  | transportFailure
  | encodeTooLong
  deriving DecidableEq, Repr

/-- The reads of the status read port (10_state.md R37, R38; assumption 24). -/
inductive Accessor where
  | version
  | numVoices
  | numTracks
  | voice (v : Nat)
  | playing
  | lenErr
  | trackPlaying (t : Nat)
  deriving DecidableEq, Repr

/-- What an accessor returns (R37, R38). -/
inductive Reading where
  | unavailable
  | version (text : List Byte)
  | numVoices (n : Byte)
  | numTracks (n : Half)
  | voice (entry : Option TrackNo)
  | playing (tracks : List Half)
  | lenErr (flag : Bool)
  | trackPlaying (flag : Bool)
  deriving DecidableEq, Repr

/-- What `Validate` returns: the opcode and payload, or the first failing check (40_frame_codec.md R84; assumption 30). -/
inductive Verdict where
  | valid (op : Byte) (payload : List Byte)
  | malformed (cause : Malformation)
  deriving DecidableEq, Repr

/-- What an operation returns to the host. -/
inductive Reply where
  | send (r : SendResult)
  | query (kind : QueryKind) (r : QueryResult)
  | reading (r : Reading)
  | encoded (frame : List Byte)
  | encodeTooLong
  | validated (v : Verdict)
  deriving DecidableEq, Repr

/-- The transport's answer to one `writeBytes`: all of the frame accepted, or a failure after some bytes of it
reached the wire, any number from none to all (43_command_encoders.md R133). -/
inductive WriteAnswer where
  | ok
  | fail (reached : Nat)
  deriving DecidableEq, Repr

/-- The environment's part in one iteration of a query's wait (R134, R136). -/
structure WaitTurn where
  /-- the bytes that arrive before the iteration's poll -/
  arrivals : List Byte
  /-- the bytes that arrive after it: buffered and not yet polled -/
  late : List Byte
  /-- the draw `elapsed()`, read only while the flag is 0 -/
  elapsed : Bool
  deriving DecidableEq, Repr

/-- The settings a transport is opened with, `BAUD` and `LINE` (00_scope.md R5, 70_reset_and_hazards.md R158); they
belong to the transport and nothing of the block reads them (assumption 21). -/
structure LineSettings where
  baudRate : Nat
  lineConfig : Nat
  deriving DecidableEq, Repr

/-- The named operations of the facade, one command frame each (43_command_encoders.md R132). -/
inductive NamedOp where
  | playSolo (track : Int)
  | playPoly (track : Int)
  | stop (track : Int)
  | pause (track : Int)
  | resume (track : Int)
  | loopOn (track : Int)
  | loopOff (track : Int)
  /-- the load action, which R132 does not give a command (assumption 31) -/
  | load (track : Int)
  | trackGain (track gain : Int)
  | masterGain (gain : Int)
  | fade (track gain timeMs : Int) (stop : Bool8)
  | bankSelect (bank : Int)
  | reportingEnable (enable : Bool8)
  | ampPower (enable : Bool8)
  | resumeAllSync
  | stopAll
  | sampleRateOffset (offset : Int)
  deriving DecidableEq, Repr

/-- One operation the host can issue (00_scope.md R9), and the environment events the spec's programs write between
them (30_encoding.md R72). -/
inductive HostOp where
  /-- `RxStep(b)`: one byte from the rx input, any byte, not taken from the transport's bytes (R10, R91; assumption 29) -/
  | rxStep (b : Byte)
  /-- `RX [..]`: the transport receives bytes, any list (R72; assumptions 22 and 27) -/
  | receive (bytes : List Byte)
  /-- `POLL`: poll everything received so far (R72, R101; assumption 27) -/
  | poll
  /-- a command with its operands (R10, R117 to R130) -/
  | issue (i : Instr)
  /-- a named operation (R132) -/
  | named (n : NamedOp)
  /-- `TRACK_CROSSFADE from to gain time` (R131) -/
  | crossfade (source target gain time : Int)
  /-- `Query(k)` (R134) -/
  | query (k : QueryKind)
  /-- an accessor (R37, R38) -/
  | read (a : Accessor)
  /-- a direct call of `Encode` (R80, R81) -/
  | encode (op : Byte) (payload : List Byte)
  /-- a direct call of `Validate` (R84; that the host may make one is assumption 30, DESIGN CHOICE) -/
  | validate (bytes : List Byte)
  /-- the reset input (R155) -/
  | reset
  /-- open and configure the transport (R158) -/
  | openTransport (settings : LineSettings)
  /-- `discardBuffered()` (R168; assumption 27) -/
  | discardBuffered
  deriving DecidableEq, Repr

/-- The environment of the block, and what a run is observed by (R169). -/
structure Env where
  /-- the open transport's settings; none before it is opened (R158) -/
  transport : Option LineSettings
  /-- inbound bytes the transport holds (R40), opened or not (assumption 27) -/
  rx : List Byte
  /-- the tx byte stream that reached the wire, oldest first (R10, R13) -/
  tx : List Byte
  /-- the answers of the next writes; past their end a write succeeds (assumption 4) -/
  writeAnswers : List WriteAnswer
  /-- the next iterations of a query's wait; past their end nothing has arrived and the bound has elapsed
  (assumption 5) -/
  waitTurns : List WaitTurn
  /-- the operations the host has yet to issue, in order (R54, R169) -/
  ops : List HostOp
  /-- the observation trace, oldest first (R14) -/
  trace : List Event
  /-- the values returned to the host, oldest first -/
  replies : List Reply
  deriving DecidableEq, Repr

/-- One block instance with its environment. -/
structure State where
  cfg : Cfg
  parser : Parser
  status : Status
  env : Env
  deriving DecidableEq, Repr

/-- Why a step stops the machine. -/
inductive Fault where
  /-- Raised by an `RxStep` in a parser state outside 10_state.md R26, which 93_implementation_defined.md U3 calls
  stuck and unreachable. Safe: no state reachable from a reset raises it. -/
  | parserOutsideInvariant
  deriving DecidableEq, Repr

/-- Why the machine gives an operation no meaning. -/
inductive Refusal where
  /-- Raised by an arm of `exec` that has no meaning yet; no arm raises it now. Safe. -/
  | notModelled (mnemonic : String)
  /-- Raised by the construction of an instance with an ill-formed configuration (00_scope.md R6,
  93_implementation_defined.md U4). Safe. -/
  | illFormedConfig
  /-- Raised when the host's command input is given a response frame, which no operation of the host emits
  (30_encoding.md R68; assumption 14). Safe. -/
  | responseIssuedByHost
  deriving DecidableEq, Repr

/-- The parser registers after `Reset` (70_reset_and_hazards.md R155). The buffer's contents are unspecified there;
all zero is the model's choice (assumption 2). -/
def Parser.reset (c : Cfg) : Parser where
  st := .awaitSom1
  off := 0
  len := 0
  buf := List.replicate c.rxbufCap 0
  frameReady := false

/-- The status model after `Reset` (R155, R156). -/
def Status.reset (c : Cfg) : Status where
  voice := List.replicate c.numVoices none
  version := []
  versionRcvd := false
  numVoices := 0
  numTracks := 0
  sysinfoRcvd := false
  playing := []
  statusRcvd := false
  lenErr := false

/-- The environment before anything has happened: a transport not yet opened (R158), nothing received, sent or issued. -/
def Env.initial : Env where
  transport := none
  rx := []
  tx := []
  writeAnswers := []
  waitTurns := []
  ops := []
  trace := []
  replies := []

/-- An instance with configuration `c` right after `Reset`. -/
def State.resetWith (c : Cfg) : State where
  cfg := c
  parser := Parser.reset c
  status := Status.reset c
  env := Env.initial

/-- The machine right after reset, with the default configuration (assumption 1). -/
def State.reset : State := State.resetWith Cfg.default

end Sys2Proof.Machine
end

