-- ==== Sys2Proof/Machine/Ops.lean ====
section
/-! DEFINITION. The named operations over the state: the pseudocode primitives of 00_scope.md R13, resynchronization
(the block's trap entry, 60_exceptions.md R147) and `SendFrame` (43_command_encoders.md R115). -/

namespace Sys2Proof.Machine

/-- Go on with the next state; a fault or a refusal stays. -/
def andThen (o : Host.Outcome State Fault Refusal) (f : State → Host.Outcome State Fault Refusal) :
    Host.Outcome State Fault Refusal :=
  match o with
  | .next s => f s
  | .fault r => .fault r
  | .refused r => .refused r

/-- `Event(e)`: append to the observation trace (R13, R14). -/
def State.record (s : State) (e : Event) : State :=
  { s with env := { s.env with trace := s.env.trace ++ [e] } }

/-- Return a value to the host. -/
def State.answer (s : State) (r : Reply) : State :=
  { s with env := { s.env with replies := s.env.replies ++ [r] } }

/-- Replace the status model. -/
def State.setStatus (s : State) (st : Status) : State := { s with status := st }

/-- Replace the parser registers. -/
def State.setParser (s : State) (p : Parser) : State := { s with parser := p }

/-- Take the operation at the head of the host's queue off it. -/
def State.popOp (s : State) : State :=
  { s with env := { s.env with ops := s.env.ops.tail } }

/-- The parser registers after `Resync`: the buffer's contents stay (41_stream_parser.md R97). -/
def Parser.resynced (p : Parser) : Parser :=
  { p with st := .awaitSom1, off := 0, len := 0, frameReady := false }

/-- `Resync()` (R97). -/
def resync (s : State) : State := s.setParser s.parser.resynced

/-- `raise Malformed(cause)`: record the drop and resynchronize (R97, R147). There is no operation that returns from it
(R148). -/
def raiseMalformed (cause : Malformation) (s : State) : State :=
  resync (s.record (.dropped cause))

/-- `Reset()`: every block register at its reset value, the configuration kept (R155; assumption 19). -/
def resetRegisters (s : State) : State :=
  { s with parser := Parser.reset s.cfg, status := Status.reset s.cfg }

/-- Construct an instance: refused unless the configuration is well-formed (00_scope.md R6, R155, R158). -/
def construct (c : Cfg) : Host.Outcome State Fault Refusal :=
  if c.wf then .next (State.resetWith c) else .refused .illFormedConfig

/-- The transport's answer to the next `writeBytes`. A transport that is not open fails every write
(70_reset_and_hazards.md R158; assumptions 4 and 13). -/
def Env.nextWrite (e : Env) : WriteAnswer :=
  match e.transport, e.writeAnswers with
  | some _, [] => .ok
  | some _, a :: _ => a
  | none, [] => .fail 0
  | none, .ok :: _ => .fail 0
  | none, .fail n :: _ => .fail n

/-- A write that the transport accepted: the whole frame is on the wire (R115). -/
def State.wrote (s : State) (f : List Byte) : State :=
  { s with env := { s.env with tx := s.env.tx ++ f, writeAnswers := s.env.writeAnswers.tail,
                               trace := s.env.trace ++ [.sent f] } }

/-- A write that failed after `n` bytes of the frame reached the wire (R133). -/
def State.writeFailed (s : State) (f : List Byte) (n : Nat) : State :=
  { s with env := { s.env with tx := s.env.tx ++ f.take n, writeAnswers := s.env.writeAnswers.tail,
                               trace := s.env.trace ++ [.sendFailed f] } }

/-- `SendFrame(op, p)` (R115; assumption 15). -/
def sendFrame (op : Byte) (p : List Byte) (s : State) : SendResult × State :=
  match encodeFrame s.cfg op p with
  | none => (.encodeTooLong, s)
  | some f =>
    match s.env.nextWrite with
    | .ok => (.ok, s.wrote f)
    | .fail n => (.transportFailure, s.writeFailed f n)

/-- Send frames one after another, stopping at the first that is not sent (R131). -/
def sendAll : List (Byte × List Byte) → State → SendResult × State
  | [], s => (.ok, s)
  | (op, p) :: rest, s =>
    match sendFrame op p s with
    | (.ok, t) => sendAll rest t
    | (r, t) => (r, t)

/-- A command: send its frame and return what `SendFrame` returned (R115). -/
def sendCommand (op : Byte) (p : List Byte) (s : State) : Host.Outcome State Fault Refusal :=
  .next ((sendFrame op p s).2.answer (.send (sendFrame op p s).1))

end Sys2Proof.Machine
end

