-- ==== Sys2Proof/Machine/Commands.lean ====
section
/-! DEFINITION. The meanings of the fourteen command frames (43_command_encoders.md R117 to R130): each packs its
operands and sends one frame. -/

namespace Sys2Proof.Machine

/-- `TRACK_CONTROL code track` (R117). -/
def execTrackControl (code track : Int) (s : State) : Host.Outcome State Fault Refusal :=
  sendCommand s.cfg.opTrackControl (p8 code ++ p16 track) s

/-- `TRACK_CONTROL_EX code track lock` (R118). -/
def execTrackControlEx (code track : Int) (lock : Bool8) (s : State) : Host.Outcome State Fault Refusal :=
  sendCommand s.cfg.opTrackControlEx (p8 code ++ p16 track ++ pBool lock) s

/-- `TRACK_VOLUME track gain` (R119). -/
def execTrackVolume (track gain : Int) (s : State) : Host.Outcome State Fault Refusal :=
  sendCommand s.cfg.opTrackVolume (p16 track ++ p16 gain) s

/-- `TRACK_FADE track gain time_ms stop` (R120). -/
def execTrackFade (track gain timeMs : Int) (stop : Bool8) (s : State) : Host.Outcome State Fault Refusal :=
  sendCommand s.cfg.opTrackFade (p16 track ++ p16 gain ++ p16 timeMs ++ pBool stop) s

/-- `MASTER_VOLUME gain` (R121). -/
def execMasterVolume (gain : Int) (s : State) : Host.Outcome State Fault Refusal :=
  sendCommand s.cfg.opMasterVolume (p16 gain) s

/-- `SAMPLERATE_OFFSET offset` (R122). -/
def execSamplerateOffset (offset : Int) (s : State) : Host.Outcome State Fault Refusal :=
  sendCommand s.cfg.opSamplerateOffset (p16 offset) s

/-- `STOP_ALL`; the voice table is not cleared (R123). -/
def execStopAll (s : State) : Host.Outcome State Fault Refusal :=
  sendCommand s.cfg.opStopAll [] s

/-- `RESUME_ALL_SYNC` (R124). -/
def execResumeAllSync (s : State) : Host.Outcome State Fault Refusal :=
  sendCommand s.cfg.opResumeAllSync [] s

/-- `GET_VERSION`, the version request frame (R125). -/
def execGetVersion (s : State) : Host.Outcome State Fault Refusal :=
  sendCommand s.cfg.opGetVersion [] s

/-- `GET_SYS_INFO`, the sys-info request frame (R126). -/
def execGetSysInfo (s : State) : Host.Outcome State Fault Refusal :=
  sendCommand s.cfg.opGetSysInfo [] s

/-- `GET_STATUS`, the status request frame (R127). -/
def execGetStatus (s : State) : Host.Outcome State Fault Refusal :=
  sendCommand s.cfg.opGetStatus [] s

/-- `AMP_POWER enable` (R128). -/
def execAmpPower (enable : Bool8) (s : State) : Host.Outcome State Fault Refusal :=
  sendCommand s.cfg.opAmpPower (pBool enable) s

/-- `SET_REPORTING enable` (R129). -/
def execSetReporting (enable : Bool8) (s : State) : Host.Outcome State Fault Refusal :=
  sendCommand s.cfg.opSetReporting (pBool enable) s

/-- `SET_TRIGGER_BANK bank` (R130). -/
def execSetTriggerBank (bank : Int) (s : State) : Host.Outcome State Fault Refusal :=
  sendCommand s.cfg.opSetTriggerBank (p8 bank) s

end Sys2Proof.Machine
end

