-- ==== Sys2Proof/Machine/Flags.lean ====
section
/-! DEFINITION. The flags (10_state.md R39), the values behind them (R37), and the error classes' codes
(60_exceptions.md R140). -/

namespace Sys2Proof.Machine

/-- The received flag a query waits for (43_command_encoders.md R134). -/
def Status.flag (t : Status) : QueryKind → Bool
  | .version => t.versionRcvd
  | .sysInfo => t.sysinfoRcvd
  | .status => t.statusRcvd

/-- `len_err <- 1` (R35). -/
def Status.flagLenErr (t : Status) : Status := { t with lenErr := true }

/-- The version text: the bytes before the first 0x00 (R37). -/
def Status.versionText (t : Status) : List Byte := t.version.takeWhile (· != 0)

/-- The 3-bit encoding of the parser state (R21). -/
def ParserState.code : ParserState → BitVec 3
  | .awaitSom1 => 0
  | .awaitSom2 => 1
  | .awaitLen => 2
  | .accumulatingPayload => 3
  | .awaitEom => 4

/-- The error and event classes (R140). -/
inductive ErrorClass where
  | malformedFrame (cause : Malformation)
  | unknownOpcode
  | lenError
  | timeout
  | transportFailure
  | encodeTooLong
  deriving DecidableEq, Repr

/-- The numeric code of a class (R140). -/
def ErrorClass.code : ErrorClass → Nat
  | .malformedFrame .badSom1 => 1
  | .malformedFrame .badSom2 => 2
  | .malformedFrame .badLen => 3
  | .malformedFrame .badEom => 4
  | .malformedFrame .lenMismatch => 5
  | .unknownOpcode => 16
  | .lenError => 17
  | .timeout => 32
  | .transportFailure => 33
  | .encodeTooLong => 34

/-- The class an event of the trace belongs to; none for an event that is no error (R140, R142, R143). -/
def Event.errorClass : Event → Option ErrorClass
  | .dispatched _ _ => none
  | .ignored _ => some .unknownOpcode
  | .dropped cause => some (.malformedFrame cause)
  | .lenError _ => some .lenError
  | .sent _ => none
  | .sendFailed _ => some .transportFailure
  | .queryDone _ .unavailable => some .timeout
  | .queryDone _ (.version _) => none
  | .queryDone _ (.sysInfo _ _) => none
  | .queryDone _ (.status _) => none

/-- The class `Validate` reports for a list it does not accept: R140's "raised by" column for `Validate`. -/
def Verdict.errorClass : Verdict → Option ErrorClass
  | .valid _ _ => none
  | .malformed cause => some (.malformedFrame cause)

/-- The class that a value returned to the host shows: the "host sees" column of R140, with `len_err` read as 1 for LenError
and nothing for a MalformedFrame or an UnknownOpcode. A cause that a direct call of `Validate` returns is a value (R84;
assumption 30), whose class is `Verdict.errorClass`. -/
def Reply.errorClass : Reply → Option ErrorClass
  | .send .ok => none
  | .send .transportFailure => some .transportFailure
  | .send .encodeTooLong => some .encodeTooLong
  | .query _ .unavailable => some .timeout
  | .query _ (.version _) => none
  | .query _ (.sysInfo _ _) => none
  | .query _ (.status _) => none
  | .reading (.lenErr true) => some .lenError
  | .reading (.lenErr false) => none
  | .reading .unavailable => none
  | .reading (.version _) => none
  | .reading (.numVoices _) => none
  | .reading (.numTracks _) => none
  | .reading (.voice _) => none
  | .reading (.playing _) => none
  | .reading (.trackPlaying _) => none
  | .encoded _ => none
  | .encodeTooLong => some .encodeTooLong
  | .validated _ => none

end Sys2Proof.Machine
end

