-- ==== Sys2Proof/Machine/Responses.lean ====
section
/-! DEFINITION. The meanings of the four response frames (42_status_dispatch.md R106 to R110, R112, R113). Each is the
`Apply` rule of its row on the payload the frame carried. -/

namespace Sys2Proof.Machine

/-- `ApplyVersion(p)` (R106). -/
def execRspVersionString (p : List Byte) (s : State) : Host.Outcome State Fault Refusal :=
  .next ((s.setStatus { s.status with version := p.take s.cfg.versionMax, versionRcvd := true }).record
    (.dispatched s.cfg.opRspVersionString p))

/-- The length-inconsistency flag set and its event recorded: all a short payload does (R35, R112), and the first thing
an odd status payload does (R110). -/
def flagLength (op : Byte) (s : State) : State :=
  (s.setStatus s.status.flagLenErr).record (.lenError op)

/-- `ApplySysInfo(p)` (R107, R112, R113). -/
def execRspSystemInfo (p : List Byte) (s : State) : Host.Outcome State Fault Refusal :=
  match p with
  | voices :: t0 :: t1 :: _ =>
    .next ((s.setStatus { s.status with numVoices := voices, numTracks := le16 t0 t1, sysinfoRcvd := true }).record
      (.dispatched s.cfg.opRspSystemInfo p))
  | [_, _] => .next (flagLength s.cfg.opRspSystemInfo s)
  | [_] => .next (flagLength s.cfg.opRspSystemInfo s)
  | [] => .next (flagLength s.cfg.opRspSystemInfo s)

/-- The 1-based track number of a wire track, exact in 17 bits (R108). -/
def exposedTrack (t0 t1 : Byte) : TrackNo := (le16 t0 t1).setWidth 17 + 1

/-- `UpdateVoice(v, t, s)` on the voice table: a zero state byte clears the slot only if it holds that track, any
other byte records the track (R109). -/
def updateVoice (table : List (Option TrackNo)) (v : Nat) (t : TrackNo) (state : Byte) : List (Option TrackNo) :=
  if state = 0 then
    if table[v]? = some (some t) then table.set v none else table
  else table.set v (some t)

/-- `ApplyTrackReport(p)` (R108, R109, R112, R113). -/
def execRspTrackReport (p : List Byte) (s : State) : Host.Outcome State Fault Refusal :=
  match p with
  | t0 :: t1 :: v :: state :: _ =>
    if v.toNat ≥ s.cfg.numVoices then .next (s.record (.dispatched s.cfg.opRspTrackReport p))
    else
      .next ((s.setStatus { s.status with
        voice := updateVoice s.status.voice v.toNat (exposedTrack t0 t1) state }).record
          (.dispatched s.cfg.opRspTrackReport p))
  | [_, _, _] => .next (flagLength s.cfg.opRspTrackReport s)
  | [_, _] => .next (flagLength s.cfg.opRspTrackReport s)
  | [_] => .next (flagLength s.cfg.opRspTrackReport s)
  | [] => .next (flagLength s.cfg.opRspTrackReport s)

/-- The length check of a status payload: an odd length is flagged, and the whole entries are used (R110). R113 says that
bytes past `2 * PLAYING_CAP` do not set `len_err`; an odd payload longer than that is flagged here by R110's test of the whole
length (assumption 28, DEDUCED). -/
def flagOddStatus (p : List Byte) (s : State) : State :=
  if p.length % 2 = 1 then flagLength s.cfg.opRspStatus s else s

/-- `ApplyStatus(p)`: the first `PLAYING_CAP` whole entries replace the list (R110). -/
def execRspStatus (p : List Byte) (s : State) : Host.Outcome State Fault Refusal :=
  .next (((flagOddStatus p s).setStatus { (flagOddStatus p s).status with
      playing := (le16List p).take s.cfg.playingCap, statusRcvd := true }).record
    (.dispatched s.cfg.opRspStatus p))

end Sys2Proof.Machine
end

