-- ==== Sys2Proof/Machine/Dispatch.lean ====
section
/-! DEFINITION. One arm per constructor of Instr, each a direct call of its meaning. -/

namespace Sys2Proof.Machine

def exec (i : Instr) (s : State) : Host.Outcome State Fault Refusal :=
  match i with
  | .trackControl code track => Sys2Proof.Machine.execTrackControl code track s
  | .trackControlEx code track lock => Sys2Proof.Machine.execTrackControlEx code track lock s
  | .trackVolume track gain => Sys2Proof.Machine.execTrackVolume track gain s
  | .trackFade track gain timeMs stop => Sys2Proof.Machine.execTrackFade track gain timeMs stop s
  | .masterVolume gain => Sys2Proof.Machine.execMasterVolume gain s
  | .samplerateOffset offset => Sys2Proof.Machine.execSamplerateOffset offset s
  | .stopAll => Sys2Proof.Machine.execStopAll s
  | .resumeAllSync => Sys2Proof.Machine.execResumeAllSync s
  | .getVersion => Sys2Proof.Machine.execGetVersion s
  | .getSysInfo => Sys2Proof.Machine.execGetSysInfo s
  | .getStatus => Sys2Proof.Machine.execGetStatus s
  | .ampPower enable => Sys2Proof.Machine.execAmpPower enable s
  | .setReporting enable => Sys2Proof.Machine.execSetReporting enable s
  | .setTriggerBank bank => Sys2Proof.Machine.execSetTriggerBank bank s
  | .rspVersionString payload => Sys2Proof.Machine.execRspVersionString payload s
  | .rspSystemInfo payload => Sys2Proof.Machine.execRspSystemInfo payload s
  | .rspStatus payload => Sys2Proof.Machine.execRspStatus payload s
  | .rspTrackReport payload => Sys2Proof.Machine.execRspTrackReport payload s

end Sys2Proof.Machine
end

