-- ==== Sys2Proof/Machine/StreamParser.lean ====
section
/-! DEFINITION. The Stream Parser: `RxStep` and its five state rules, `Dispatch`, and `Poll` (41_stream_parser.md R90
to R104, 42_status_dispatch.md R105, R111). -/

namespace Sys2Proof.Machine

/-- The parser invariant between operations (10_state.md R26), with the buffer's fixed size (R24). -/
def Parser.ok (c : Cfg) (p : Parser) : Bool :=
  !p.frameReady && decide (p.buf.length = c.rxbufCap) &&
  match p.st with
  | .awaitSom1 => decide (p.off.toNat = 0 ∧ p.len.toNat = 0)
  | .awaitSom2 => decide (p.off.toNat = 1 ∧ p.len.toNat = 0)
  | .awaitLen => decide (p.off.toNat = 2 ∧ p.len.toNat = 0)
  | .accumulatingPayload =>
    decide (minLen ≤ p.len.toNat ∧ p.len.toNat ≤ c.maxLen ∧ 3 ≤ p.off.toNat ∧ p.off.toNat ≤ p.len.toNat - 2)
  | .awaitEom =>
    decide (minLen ≤ p.len.toNat ∧ p.len.toNat ≤ c.maxLen ∧ p.off.toNat = p.len.toNat - 1)

/-- The bytes of the in-progress frame from OPCODE to the last payload byte, `buf[0 .. len - 5]` (R24, R96). -/
def Parser.body (p : Parser) : List Byte := p.buf.take (p.len.toNat - 4)

/-- `Dispatch(op, p)`: the meaning of the response row of `op`; an unknown opcode is ignored (R105, R111). -/
def dispatch (op : Byte) (p : List Byte) (s : State) : Host.Outcome State Fault Refusal :=
  match decodeResponse s.cfg op p with
  | some i => exec i s
  | none => .next (s.record (.ignored op))

/-- `StepSom1(b)` (R92). -/
def stepSom1 (b : Byte) (s : State) : State :=
  if b = s.cfg.som1 then s.setParser { s.parser with st := .awaitSom2, off := 1 } else s

/-- `StepSom2(b)` (R93). -/
def stepSom2 (b : Byte) (s : State) : State :=
  if b = s.cfg.som2 then s.setParser { s.parser with st := .awaitLen, off := 2 }
  else raiseMalformed .badSom2 s

/-- `StepLen(b)` (R94). -/
def stepLen (b : Byte) (s : State) : State :=
  if minLen ≤ b.toNat ∧ b.toNat ≤ s.cfg.maxLen then
    s.setParser { s.parser with len := b, off := 3, st := .accumulatingPayload }
  else raiseMalformed .badLen s

/-- `StepAccum(b)`: write `buf[off - 3]`, advance `off`, and go to `AwaitEom` once `off = len - 1` (R95). -/
def stepAccum (b : Byte) (s : State) : State :=
  s.setParser { s.parser with
    buf := s.parser.buf.set (s.parser.off.toNat - 3) b
    off := s.parser.off + 1
    st := if (s.parser.off + 1).toNat = s.parser.len.toNat - 1 then .awaitEom else s.parser.st }

/-- `frame_ready <- 1` (R96). -/
def markReady (s : State) : State := s.setParser { s.parser with frameReady := true }

/-- `StepEom(b)`: at EOM, dispatch the buffered frame and resynchronize, in this one step (R96, 20_memory.md R50). A
buffer with no opcode byte is outside R26. -/
def stepEom (b : Byte) (s : State) : Host.Outcome State Fault Refusal :=
  if b = s.cfg.eom then
    match s.parser.body with
    | [] => .fault .parserOutsideInvariant
    | op :: p => andThen (dispatch op p (markReady s)) (fun t => .next (resync t))
  else .next (raiseMalformed .badEom s)

/-- `RxStep(b)`: exactly one transition, selected by `st` (R90, R91). The byte is the operand, and the transport's bytes are
neither read nor written (assumption 29, DESIGN CHOICE). A parser state outside R26 is stuck (93_implementation_defined.md U3;
assumption 3). -/
def rxStep (b : Byte) (s : State) : Host.Outcome State Fault Refusal :=
  if s.parser.ok s.cfg then
    match s.parser.st with
    | .awaitSom1 => .next (stepSom1 b s)
    | .awaitSom2 => .next (stepSom2 b s)
    | .awaitLen => .next (stepLen b s)
    | .accumulatingPayload => .next (stepAccum b s)
    | .awaitEom => stepEom b s
  else .fault .parserOutsideInvariant

/-- `Poll(bs)`: one `RxStep` per byte, in order (R101). -/
def pollBytes : List Byte → State → Host.Outcome State Fault Refusal
  | [], s => .next s
  | b :: rest, s => andThen (rxStep b s) (pollBytes rest)

/-- The host's poll of everything the transport holds (R72, R101); the model polls a transport not yet opened in the same
way (assumption 27). -/
def pollTransport (s : State) : Host.Outcome State Fault Refusal :=
  pollBytes s.env.rx { s with env := { s.env with rx := [] } }

end Sys2Proof.Machine
end

