-- ==== Sys2Proof/Machine/Facade.lean ====
section
/-! DEFINITION. The Command Facade beside the commands: named operations, the cross-fade, the status read port and the
bounded-wait queries (43_command_encoders.md R131 to R136, 10_state.md R37, R38). -/

namespace Sys2Proof.Machine

/-- The command a named operation expands to (R132, with the codes of R116; that load is `TRACK_CONTROL` with `TRK_LOAD` is
assumption 31, DEDUCED). -/
def NamedOp.expand (c : Cfg) : NamedOp → Instr
  | .playSolo t => .trackControl c.trkPlaySolo.toNat t
  | .playPoly t => .trackControl c.trkPlayPoly.toNat t
  | .stop t => .trackControl c.trkStop.toNat t
  | .pause t => .trackControl c.trkPause.toNat t
  | .resume t => .trackControl c.trkResume.toNat t
  | .loopOn t => .trackControl c.trkLoopOn.toNat t
  | .loopOff t => .trackControl c.trkLoopOff.toNat t
  | .load t => .trackControl c.trkLoad.toNat t
  | .trackGain t g => .trackVolume t g
  | .masterGain g => .masterVolume g
  | .fade t g m x => .trackFade t g m x
  | .bankSelect b => .setTriggerBank b
  | .reportingEnable e => .setReporting e
  | .ampPower e => .ampPower e
  | .resumeAllSync => .resumeAllSync
  | .stopAll => .stopAll
  | .sampleRateOffset o => .samplerateOffset o

/-- The four frames of `TRACK_CROSSFADE from to gain time`, in order (R131). -/
def crossfadeFrames (c : Cfg) (source target gain time : Int) : List (Byte × List Byte) :=
  [(c.opTrackVolume, p16 target ++ p16 c.xfadeAtten.toInt),
   (c.opTrackControl, p8 c.xfadeStartCode.toNat ++ p16 target),
   (c.opTrackFade, p16 target ++ p16 gain ++ p16 time ++ pBool (.bool false)),
   (c.opTrackFade, p16 source ++ p16 c.xfadeAtten.toInt ++ p16 time ++ pBool (.int c.xfadeOutStop.toNat))]

/-- `TRACK_CROSSFADE from to gain time` (R131; assumptions 10 and 12). -/
def crossfade (source target gain time : Int) (s : State) : Host.Outcome State Fault Refusal :=
  .next ((sendAll (crossfadeFrames s.cfg source target gain time) s).2.answer
    (.send (sendAll (crossfadeFrames s.cfg source target gain time) s).1))

/-- `getVoice(v)`: none for a voice number out of range (R37). -/
def voiceEntry (s : State) (v : Nat) : Option TrackNo :=
  if v < s.cfg.numVoices then s.status.voice.getD v none else none

/-- `isTrackPlaying(t)`: some slot holds track `t` (R38). -/
def isTrackPlaying (s : State) (t : Nat) : Bool :=
  (List.range s.cfg.numVoices).any fun v => (voiceEntry s v).map BitVec.toNat == some t

/-- What an accessor returns (R37, R38). -/
def readAccessor (s : State) : Accessor → Reading
  | .version => if s.status.versionRcvd then .version s.status.versionText else .unavailable
  | .numVoices => if s.status.sysinfoRcvd then .numVoices s.status.numVoices else .unavailable
  | .numTracks => if s.status.sysinfoRcvd then .numTracks s.status.numTracks else .unavailable
  | .voice v => .voice (voiceEntry s v)
  | .playing => if s.status.statusRcvd then .playing s.status.playing else .unavailable
  | .lenErr => .lenErr s.status.lenErr
  | .trackPlaying t => .trackPlaying (isTrackPlaying s t)

/-- The request opcode of a query (R134). -/
def requestOpcode (c : Cfg) : QueryKind → Byte
  | .version => c.opGetVersion
  | .sysInfo => c.opGetSysInfo
  | .status => c.opGetStatus

/-- `Value(k)`: the cached value (R135). -/
def queryValue (t : Status) : QueryKind → QueryResult
  | .version => .version t.versionText
  | .sysInfo => .sysInfo t.numVoices t.numTracks
  | .status => .status t.playing

/-- The end of a query: record and return its result (R134). -/
def finishQuery (k : QueryKind) (r : QueryResult) (s : State) : State :=
  (s.record (.queryDone k r)).answer (.query k r)

/-- One wait iteration begins: `turn`'s bytes arrive, the script goes on with `rest` (R134; assumption 26). -/
def beginTurn (turn : WaitTurn) (rest : List WaitTurn) (s : State) : State :=
  { s with env := { s.env with rx := s.env.rx ++ turn.arrivals, waitTurns := rest } }

/-- The bytes that arrive after an iteration's poll stay in the transport (R136; assumption 26). -/
def lateArrivals (turn : WaitTurn) (s : State) : State :=
  { s with env := { s.env with rx := s.env.rx ++ turn.late } }

/-- The end of one iteration: the flag set gives the cached value; the bound elapsed gives `unavailable`; else the wait
goes on (R134). -/
def endTurn (k : QueryKind) (elapsed : Bool) (goOn : State → Host.Outcome State Fault Refusal) (t : State) :
    Host.Outcome State Fault Refusal :=
  if t.status.flag k then .next (finishQuery k (queryValue t.status k) t)
  else if elapsed then .next (finishQuery k .unavailable t)
  else goOn t

/-- The wait loop of `Query(k)`: poll, test the flag, test `elapsed()` (R134, R136). When the script has ended, one last
iteration follows in which nothing more arrives and the bound has elapsed (assumption 5). -/
def queryLoop (k : QueryKind) : List WaitTurn → State → Host.Outcome State Fault Refusal
  | [], s =>
    andThen (pollTransport s) fun t =>
      .next (finishQuery k (if t.status.flag k then queryValue t.status k else .unavailable) t)
  | turn :: rest, s =>
    andThen (pollTransport (beginTurn turn rest s)) fun t =>
      endTurn k turn.elapsed (queryLoop k rest) (lateArrivals turn t)

/-- `Query(k)`: send the request, then wait (R134; assumption 11). -/
def query (k : QueryKind) (s : State) : Host.Outcome State Fault Refusal :=
  match sendFrame (requestOpcode s.cfg k) [] s with
  | (.ok, t) => queryLoop k t.env.waitTurns t
  | (r, t) => .next (t.answer (.send r))

end Sys2Proof.Machine
end

