-- ==== Sys2Proof/Machine/HostOps.lean ====
section
/-! DEFINITION. One host operation or environment event (00_scope.md R9), and how a table word is placed for the next
step. -/

namespace Sys2Proof.Machine

/-- A command given to the command input; the host emits only command rows (30_encoding.md R68; assumption 14). -/
def issueCommand (i : Instr) (s : State) : Host.Outcome State Fault Refusal :=
  match i.direction with
  | .command => exec i s
  | .response => .refused .responseIssuedByHost

/-- A direct call of `Encode` (40_frame_codec.md R80, R81). -/
def encodeReply (c : Cfg) (op : Byte) (p : List Byte) : Reply :=
  match encodeFrame c op p with
  | some f => .encoded f
  | none => .encodeTooLong

/-- A direct call of `Validate`: its value goes back to the host, the cause of a failing check with it (R84, where R140 and
R141 let a dropped frame show the host nothing; assumption 30, DESIGN CHOICE). -/
def validateReply (c : Cfg) (r : List Byte) : Reply :=
  match validate c r with
  | .ok (op, p) => .validated (.valid op p)
  | .error cause => .validated (.malformed cause)

/-- The effect of one operation. `rxStep` takes any byte, ahead of those the transport holds, which stay there
(assumption 29, DESIGN CHOICE). `receive`, `poll` and `discardBuffered` do not look at whether the transport is open
(assumption 27). `validate` returns its verdict and records no event (assumption 30, DESIGN CHOICE). -/
def runOp (op : HostOp) (s : State) : Host.Outcome State Fault Refusal :=
  match op with
  | .rxStep b => rxStep b s
  | .receive bs => .next { s with env := { s.env with rx := s.env.rx ++ bs } }
  | .poll => pollTransport s
  | .issue i => issueCommand i s
  | .named n => exec (n.expand s.cfg) s
  | .crossfade source target gain time => crossfade source target gain time s
  | .query k => query k s
  | .read a => .next (s.answer (.reading (readAccessor s a)))
  | .encode o p => .next (s.answer (encodeReply s.cfg o p))
  | .validate r => .next (s.answer (validateReply s.cfg r))
  | .reset => .next (resetRegisters s)
  | .openTransport l => .next { s with env := { s.env with transport := some l } }
  | .discardBuffered => .next { s with env := { s.env with rx := [] } }

/-- Issue the operation at the head of the host's queue; with none pending the block takes no step (R8; assumption 6). -/
def runNext (s : State) : Host.Outcome State Fault Refusal :=
  match s.env.ops with
  | [] => .next s
  | op :: _ => runOp op s.popOp

/-- A command at the head of the host's queue, the transport open (assumption 7). -/
def placeCommand (i : Instr) (s : State) : State :=
  { s with env := { s.env with
      transport := some (s.env.transport.getD { baudRate := 0, lineConfig := 0 })
      ops := .issue i :: s.env.ops } }

/-- A frame as the whole of what the transport holds, the parser hunting for its start, and a poll at the head of the
host's queue (assumption 7). -/
def placeInbound (f : List Byte) (s : State) : State :=
  { s with parser := s.parser.resynced
           env := { s.env with rx := f, ops := .poll :: s.env.ops } }

/-- A table word where the next step takes it from: a command row on the command input, any other frame in the
inbound stream (R10, R68; assumption 7). -/
def placeWord (s : State) (nbits w : Nat) : State :=
  match decode s.cfg .command (tableFrame s.cfg nbits w) with
  | .ok i => placeCommand i s
  | .error _ => placeInbound (tableFrame s.cfg nbits w) s

end Sys2Proof.Machine
end

