-- ==== Sys2Proof/Machine/Step.lean ====
section
/-! DEFINITION. The step of the machine: the next host operation, whole (00_scope.md R9). -/

namespace Sys2Proof.Machine

/-- One step: the host issues the operation at the head of its queue (R9, R54). -/
def step (s : State) : Host.Outcome State Fault Refusal := runNext s

/-- The state with a table word's instruction placed so that the next step runs it (assumption 7). -/
def State.withFetchWord (s : State) (nbits w : Nat) : State := placeWord s nbits w

end Sys2Proof.Machine
end

