-- ==== Sys2Proof/Machine/Instances.lean ====
section
/-! DEFINITION. Several block instances: each has its own registers and configuration and they share no state
(10_state.md R42, 60_exceptions.md R152). -/

namespace Sys2Proof.Machine

/-- One step of instance `k` of a fleet; a number that names no instance changes nothing (assumption 23). -/
def stepInstance (k : Nat) (fleet : List State) : Host.Outcome (List State) Fault Refusal :=
  match fleet[k]? with
  | none => .next fleet
  | some s =>
    match step s with
    | .next t => .next (fleet.set k t)
    | .fault r => .fault r
    | .refused r => .refused r

end Sys2Proof.Machine
end

