-- ==== Sys2Proof/Safety.lean ====
section
/-! DEFINITION. The terms claims use: the invariant of a safe run, and the states the rules name. -/

namespace Sys2Proof.Machine

/-- A voice-table entry: unassigned, or a 1-based track 1..65536 (10_state.md R27). -/
def entryOk : Option TrackNo → Bool
  | none => true
  | some n => decide (1 ≤ n.toNat ∧ n.toNat ≤ 65536)

/-- The status model's bounds: the voice table has `NUM_VOICES` slots, each unassigned or a track 1..65536
(10_state.md R27), the version at most `VERSION_MAX` bytes (R28), the list at most `PLAYING_CAP` entries (R33). -/
abbrev Status.ok (c : Cfg) (t : Status) : Prop :=
  t.voice.length = c.numVoices ∧
  t.voice.all entryOk = true ∧
  t.version.length ≤ c.versionMax ∧
  t.playing.length ≤ c.playingCap

/-- The invariant between any two operations: a well-formed configuration (00_scope.md R6), the parser invariant
(10_state.md R26) and the status model's bounds. -/
abbrev State.Inv (s : State) : Prop :=
  s.cfg.wf ∧ s.parser.ok s.cfg = true ∧ s.status.ok s.cfg

/-- The parser at rest: hunting for a start, no byte of a frame held. -/
abbrev State.AtRest (s : State) : Prop := s.parser.ok s.cfg = true ∧ s.parser.st = .awaitSom1

/-- The block's registers and configuration are the same in both states. -/
abbrev SameBlock (s t : State) : Prop := t.cfg = s.cfg ∧ t.parser = s.parser ∧ t.status = s.status

/-- `s` after frame `f` was accepted whole by the transport and the caller told so (R115). -/
def sentState (s : State) (f : List Byte) : State :=
  { cfg := s.cfg
    parser := s.parser
    status := s.status
    env := { s.env with
      tx := s.env.tx ++ f
      writeAnswers := s.env.writeAnswers.tail
      trace := s.env.trace ++ [Event.sent f]
      replies := s.env.replies ++ [Reply.send SendResult.ok] } }

/-- `s` after the write of frame `f` failed with `n` of its bytes on the wire and the caller told so (R133). -/
def failedState (s : State) (f : List Byte) (n : Nat) : State :=
  { cfg := s.cfg
    parser := s.parser
    status := s.status
    env := { s.env with
      tx := s.env.tx ++ f.take n
      writeAnswers := s.env.writeAnswers.tail
      trace := s.env.trace ++ [Event.sendFailed f]
      replies := s.env.replies ++ [Reply.send SendResult.transportFailure] } }

/-- `s` with the parser registers `st`, `off`, `len` set, the buffer and `frame_ready` as they are. -/
def parserAt (s : State) (st : ParserState) (off len : BitVec 8) : State :=
  { s with parser := { s.parser with st := st, off := off, len := len } }

/-- `s` with the parser back at rest and one event recorded: what a drop leaves (41_stream_parser.md R97). -/
def droppedState (s : State) (cause : Malformation) : State :=
  { cfg := s.cfg
    parser := { st := .awaitSom1, off := 0, len := 0, buf := s.parser.buf, frameReady := false }
    status := s.status
    env := { s.env with trace := s.env.trace ++ [Event.dropped cause] } }

/-- `s` with a new status model and new events at the end of the trace: all a dispatch may change
(42_status_dispatch.md R114). -/
def appliedState (s : State) (status : Status) (events : List Event) : State :=
  { cfg := s.cfg
    parser := s.parser
    status := status
    env := { s.env with trace := s.env.trace ++ events } }

/-- Instruction `i` sends exactly frame `f` from `s`: on an accepted write the step completes with the whole frame on the
wire and `ok` returned (R115), on a failed one with the part of it the transport let through and `TransportFailure` (R133).
In both, every block register and all else of the environment stays. -/
def SendsExactly (s : State) (i : Instr) (f : List Byte) : Prop :=
  (s.env.nextWrite = .ok → exec i s = .next (sentState s f)) ∧
  (∀ n, s.env.nextWrite = .fail n → exec i s = .next (failedState s f n))

/-- The frame that `Dispatch(op, p)` sees is applied by running bytes `bs` from `s`: the result is that of the dispatch in
the status model and the trace, with the parser at rest again. -/
def DeliversFrame (bs : List Byte) (op : Byte) (p : List Byte) (before : List Event) (s : State) : Prop :=
  ∃ u t, dispatch op p (appliedState s s.status before) = .next u ∧ pollBytes bs s = .next t ∧
    t.status = u.status ∧ t.env = u.env ∧ t.cfg = s.cfg ∧ t.AtRest

/-- The four frames of a cross-fade, byte by byte (43_command_encoders.md R131). -/
def crossfadeBytes (c : Cfg) (source target gain time : Int) : List (List Byte) :=
  [[c.som1, c.som2, 9, c.opTrackVolume, lo8 (u16 target), hi8 (u16 target), lo8 c.xfadeAtten, hi8 c.xfadeAtten, c.eom],
   [c.som1, c.som2, 8, c.opTrackControl, c.xfadeStartCode, lo8 (u16 target), hi8 (u16 target), c.eom],
   [c.som1, c.som2, 12, c.opTrackFade, lo8 (u16 target), hi8 (u16 target), lo8 (u16 gain), hi8 (u16 gain),
    lo8 (u16 time), hi8 (u16 time), 0, c.eom],
   [c.som1, c.som2, 12, c.opTrackFade, lo8 (u16 source), hi8 (u16 source), lo8 c.xfadeAtten, hi8 c.xfadeAtten,
    lo8 (u16 time), hi8 (u16 time), c.xfadeOutStop, c.eom]]

/-- An operation that gives the parser bytes: only these and `Reset` may write a block register (10_state.md R36). -/
def HostOp.feedsParser : HostOp → Bool
  | .rxStep _ => true
  | .receive _ => false
  | .poll => true
  | .issue _ => false
  | .named _ => false
  | .crossfade _ _ _ _ => false
  | .query _ => true
  | .read _ => false
  | .encode _ _ => false
  | .validate _ => false
  | .reset => false
  | .openTransport _ => false
  | .discardBuffered => false

/-- All the bytes that turns of a query's wait deliver, in order (43_command_encoders.md R134; assumption 26). -/
def turnBytes (turns : List WaitTurn) : List Byte := turns.flatMap fun turn => turn.arrivals ++ turn.late

/-- The bytes a query's wait polled between `s`, where it began, and `t`, where it ended: what the transport held, all that
the turns before the last delivered, and what arrived before the last poll. The wait ended either at a turn of the script,
whose late bytes stay in the transport (assumption 26), or at the one iteration past the script's end (assumption 5). -/
def PolledByWait (s t : State) (bs : List Byte) : Prop :=
  (∃ used turn, s.env.waitTurns = used ++ turn :: t.env.waitTurns ∧ t.env.rx = turn.late ∧
    bs = s.env.rx ++ turnBytes used ++ turn.arrivals) ∨
  (t.env.waitTurns = [] ∧ t.env.rx = [] ∧ bs = s.env.rx ++ turnBytes s.env.waitTurns)

/-- What a run is observed by (70_reset_and_hazards.md R169): the block state, the tx stream and the trace. -/
structure Observation where
  cfg : Cfg
  parser : Parser
  status : Status
  tx : List Byte
  trace : List Event
  deriving DecidableEq, Repr

/-- The observation of an end state (R169). -/
def State.observe (s : State) : Observation :=
  { cfg := s.cfg, parser := s.parser, status := s.status, tx := s.env.tx, trace := s.env.trace }

/-- A run: the operations one after another, from a state, each in one step of its own (R54, R169). -/
def runOps : List HostOp → State → Host.Outcome State Fault Refusal
  | [], s => .next s
  | op :: rest, s => andThen (runOp op s) (runOps rest)

end Sys2Proof.Machine
end

