-- ==== Sys2Proof/Certificates/Slice0/Obligations.lean ====
section
/-! DEFINITION. The statements for the provers, each formalising numbered rules of the spec. -/

open Sys2Proof Sys2Proof.Machine

/-! ### Codec -/

/-- R88: the little-endian law, both ways round. -/
def Obligations.LittleEndianFieldsRoundTrip : Prop :=
  (∀ w : Half, le16 (lo8 w) (hi8 w) = w) ∧
  ∀ a b : Byte, lo8 (le16 a b) = a ∧ hi8 (le16 a b) = b

/-- R83: the truncation law. Every integer is narrowed modulo the field's width, and a value within -32768..32767 comes
back when the 16 bits are sign-extended. -/
def Obligations.NarrowingWrapsAndReadsBack : Prop :=
  ∀ v : Int,
    (∃ b0 b1, p16 v = [b0, b1] ∧ le16 b0 b1 = u16 v) ∧
    ((u16 v).toNat : Int) = v % 65536 ∧ ((u8 v).toNat : Int) = v % 256 ∧
    (-32768 ≤ v → v ≤ 32767 → ((u16 v).signExtend 32).toInt = v)

/-- R80, R81: a direct `Encode` of a payload that fits returns the frame of R60, and of one that does not it returns
`EncodeTooLong`; in both cases nothing is emitted and no register is written. -/
def Obligations.EncodeReturnsTheFrameOrRefuses : Prop :=
  ∀ (s : State) (op : Byte) (p : List Byte),
    (5 + p.length ≤ s.cfg.maxLen →
      runOp (.encode op p) s = .next { s with env := { s.env with replies := s.env.replies ++
        [.encoded ([s.cfg.som1, s.cfg.som2, BitVec.ofNat 8 (5 + p.length), op] ++ p ++ [s.cfg.eom])] } }) ∧
    (s.cfg.maxLen < 5 + p.length →
      runOp (.encode op p) s = .next { s with env := { s.env with replies := s.env.replies ++ [.encodeTooLong] } })

/-- R84, R85: `Validate` makes its checks in order, reports the first that fails, and otherwise returns the opcode and
the payload bytes 4 .. LEN - 2. -/
def Obligations.ValidateReportsTheFirstFailingCheck : Prop :=
  ∀ (c : Cfg) (r : List Byte), c.wf →
    (r[0]? ≠ some c.som1 → validate c r = .error .badSom1) ∧
    (r[0]? = some c.som1 →
      (r[1]? ≠ some c.som2 → validate c r = .error .badSom2) ∧
      (r[1]? = some c.som2 →
        (r[2]? = none → validate c r = .error .badLen) ∧
        ∀ l, r[2]? = some l →
          (l.toNat < 5 ∨ c.maxLen < l.toNat → validate c r = .error .badLen) ∧
          (5 ≤ l.toNat → l.toNat ≤ c.maxLen →
            (r.length < l.toNat → validate c r = .error .lenMismatch) ∧
            (l.toNat ≤ r.length →
              (r[l.toNat - 1]? ≠ some c.eom → validate c r = .error .badEom) ∧
              (r[l.toNat - 1]? = some c.eom →
                (l.toNat < r.length → validate c r = .error .lenMismatch) ∧
                (r.length = l.toNat →
                  ∃ op, r[3]? = some op ∧ validate c r = .ok (op, (r.take (l.toNat - 1)).drop 4)))))))

/-- R60, R61, R84: `Validate` accepts exactly the frames `Encode` can build. -/
def Obligations.ValidateAcceptsExactlyTheEncodedFrames : Prop :=
  ∀ (c : Cfg) (r : List Byte) (op : Byte) (p : List Byte), c.wf →
    (validate c r = .ok (op, p) ↔
      5 + p.length ≤ c.maxLen ∧
      r = [c.som1, c.som2, BitVec.ofNat 8 (5 + p.length), op] ++ p ++ [c.eom])

/-! ### Decode and encode -/

/-- Decoding the encoding of a well-formed instruction gives it back, for every row of the table, every operand value its
fields admit, and every well-formed configuration. That a `bool8` byte of 2 to 255 reads back as that integer is the model's
form, log entry 9 (DEDUCED): R63 reads it as true. -/
def Obligations.DecodeOfEncodeIsTheInstruction : Prop :=
  ∀ (c : Cfg) (i : Instr), c.wf → i.wf c = true → decode c i.direction (encode c i) = .ok i

/-- Encoding what a frame decodes to gives the frame back: each frame has one meaning in its direction, and it is
well-formed. Two points of it are the model's: a `bool8` byte above 1 is kept as an integer, where R63 reads true (log entry
9, DEDUCED), and a command frame of another payload length than its row's is rejected (log entry 20, DEDUCED). -/
def Obligations.EncodeOfDecodeIsTheFrame : Prop :=
  ∀ (c : Cfg) (d : Direction) (bs : List Byte) (i : Instr), c.wf → decode c d bs = .ok i →
    encode c i = bs ∧ i.direction = d ∧ i.wf c = true

/-- R86: for every command and ALL operand values, the frame the encoder emits validates to its opcode and payload, and
reading the fields back gives the narrowed operands. -/
def Obligations.EveryCommandRoundTripsNarrowed : Prop :=
  ∀ (s : State) (i : Instr), s.cfg.wf → i.direction = .command → s.env.nextWrite = .ok →
    ∃ f, exec i s = .next (sentState s f) ∧
      validate s.cfg f = .ok (opcodeOf s.cfg i, payloadOf i) ∧
      decode s.cfg .command f = .ok i.narrowed

/-- Frames written out from the spec's encodings decode to the instructions they stand for (a sanity statement). -/
def Obligations.ExampleFramesDecode : Prop :=
  decode Cfg.default .command [0xF0, 0xAA, 0x08, 0x03, 0x00, 0x07, 0x00, 0x55] = .ok (.trackControl 0 7) ∧
  decode Cfg.default .command [0xF0, 0xAA, 0x09, 0x11, 0x01, 0x2C, 0x01, 0x01, 0x55] =
    .ok (.trackControlEx 1 300 (.bool true)) ∧
  decode Cfg.default .command [0xF0, 0xAA, 0x0C, 0x0A, 0x05, 0x00, 0xD8, 0xFF, 0xD0, 0x07, 0x01, 0x55] =
    .ok (.trackFade 5 0xFFD8 2000 (.bool true)) ∧
  decode Cfg.default .command [0xF0, 0xAA, 0x05, 0x04, 0x55] = .ok .stopAll ∧
  decode Cfg.default .response [0xF0, 0xAA, 0x08, 0x82, 0x08, 0x64, 0x00, 0x55] =
    .ok (.rspSystemInfo [0x08, 0x64, 0x00]) ∧
  decode Cfg.default .response [0xF0, 0xAA, 0x05, 0x42, 0x55] = .error (.unknownOpcode 0x42)

/-! ### Commands -/

/-- R117, R118: TRACK_CONTROL and TRACK_CONTROL_EX complete, each sending its frame, for every operand and both forms of
the lock operand. -/
def Obligations.TrackControlCommandsSendTheirFrames : Prop :=
  ∀ (s : State) (code track n : Int) (b : Bool), s.cfg.wf →
    SendsExactly s (.trackControl code track)
      [s.cfg.som1, s.cfg.som2, 8, s.cfg.opTrackControl, u8 code, lo8 (u16 track), hi8 (u16 track), s.cfg.eom] ∧
    SendsExactly s (.trackControlEx code track (.bool b))
      [s.cfg.som1, s.cfg.som2, 9, s.cfg.opTrackControlEx, u8 code, lo8 (u16 track), hi8 (u16 track),
       if b then 1 else 0, s.cfg.eom] ∧
    SendsExactly s (.trackControlEx code track (.int n))
      [s.cfg.som1, s.cfg.som2, 9, s.cfg.opTrackControlEx, u8 code, lo8 (u16 track), hi8 (u16 track),
       u8 n, s.cfg.eom]

/-- R119, R121, R122: TRACK_VOLUME, MASTER_VOLUME and SAMPLERATE_OFFSET complete, each sending its frame, the signed
operand as its 16-bit two's complement. -/
def Obligations.GainAndOffsetCommandsSendTheirFrames : Prop :=
  ∀ (s : State) (track gain offset : Int), s.cfg.wf →
    SendsExactly s (.trackVolume track gain)
      [s.cfg.som1, s.cfg.som2, 9, s.cfg.opTrackVolume, lo8 (u16 track), hi8 (u16 track),
       lo8 (u16 gain), hi8 (u16 gain), s.cfg.eom] ∧
    SendsExactly s (.masterVolume gain)
      [s.cfg.som1, s.cfg.som2, 7, s.cfg.opMasterVolume, lo8 (u16 gain), hi8 (u16 gain), s.cfg.eom] ∧
    SendsExactly s (.samplerateOffset offset)
      [s.cfg.som1, s.cfg.som2, 7, s.cfg.opSamplerateOffset, lo8 (u16 offset), hi8 (u16 offset), s.cfg.eom]

/-- R120: TRACK_FADE completes, sending its 12-byte frame, for both forms of the stop operand. -/
def Obligations.TrackFadeSendsItsFrame : Prop :=
  ∀ (s : State) (track gain timeMs n : Int) (b : Bool), s.cfg.wf →
    SendsExactly s (.trackFade track gain timeMs (.bool b))
      [s.cfg.som1, s.cfg.som2, 12, s.cfg.opTrackFade, lo8 (u16 track), hi8 (u16 track), lo8 (u16 gain), hi8 (u16 gain),
       lo8 (u16 timeMs), hi8 (u16 timeMs), if b then 1 else 0, s.cfg.eom] ∧
    SendsExactly s (.trackFade track gain timeMs (.int n))
      [s.cfg.som1, s.cfg.som2, 12, s.cfg.opTrackFade, lo8 (u16 track), hi8 (u16 track), lo8 (u16 gain), hi8 (u16 gain),
       lo8 (u16 timeMs), hi8 (u16 timeMs), u8 n, s.cfg.eom]

/-- R123 to R127: STOP_ALL, RESUME_ALL_SYNC, GET_VERSION, GET_SYS_INFO and GET_STATUS complete, each sending its
five-byte frame; no register changes, the voice table among them. -/
def Obligations.OperandlessCommandsSendTheirFrames : Prop :=
  ∀ s : State, s.cfg.wf →
    SendsExactly s .stopAll [s.cfg.som1, s.cfg.som2, 5, s.cfg.opStopAll, s.cfg.eom] ∧
    SendsExactly s .resumeAllSync [s.cfg.som1, s.cfg.som2, 5, s.cfg.opResumeAllSync, s.cfg.eom] ∧
    SendsExactly s .getVersion [s.cfg.som1, s.cfg.som2, 5, s.cfg.opGetVersion, s.cfg.eom] ∧
    SendsExactly s .getSysInfo [s.cfg.som1, s.cfg.som2, 5, s.cfg.opGetSysInfo, s.cfg.eom] ∧
    SendsExactly s .getStatus [s.cfg.som1, s.cfg.som2, 5, s.cfg.opGetStatus, s.cfg.eom]

/-- R128 to R130: AMP_POWER, SET_REPORTING and SET_TRIGGER_BANK complete, each sending its six-byte frame, for both forms
of the enable operand. -/
def Obligations.OneByteCommandsSendTheirFrames : Prop :=
  ∀ (s : State) (n : Int) (b : Bool), s.cfg.wf →
    SendsExactly s (.ampPower (.bool b))
      [s.cfg.som1, s.cfg.som2, 6, s.cfg.opAmpPower, if b then 1 else 0, s.cfg.eom] ∧
    SendsExactly s (.ampPower (.int n)) [s.cfg.som1, s.cfg.som2, 6, s.cfg.opAmpPower, u8 n, s.cfg.eom] ∧
    SendsExactly s (.setReporting (.bool b))
      [s.cfg.som1, s.cfg.som2, 6, s.cfg.opSetReporting, if b then 1 else 0, s.cfg.eom] ∧
    SendsExactly s (.setReporting (.int n)) [s.cfg.som1, s.cfg.som2, 6, s.cfg.opSetReporting, u8 n, s.cfg.eom] ∧
    SendsExactly s (.setTriggerBank n) [s.cfg.som1, s.cfg.som2, 6, s.cfg.opSetTriggerBank, u8 n, s.cfg.eom]

/-- R138 for every instruction and command: `exec` does with any operands what it does with their narrowed values, and a
command, whatever its operands, completes: it sends the frame of its narrowed operands, or on a failed write returns
`TransportFailure` (R115, R133). The narrowed form of a `bool8` operand is log entry 9's (DEDUCED). -/
def Obligations.OutOfRangeOperandsAreWrappedNotRefused : Prop :=
  (∀ (i : Instr) (s : State), exec i s = exec i.narrowed s) ∧
  ∀ (i : Instr) (s : State), s.cfg.wf → i.direction = .command → SendsExactly s i (encode s.cfg i.narrowed)

/-- R158 and assumption 13: until the transport is opened every command of a well-formed configuration returns
`TransportFailure` and writes no register (how many bytes reach the wire is the environment's). -/
def Obligations.ClosedTransportFailsEveryCommand : Prop :=
  ∀ (s : State) (i : Instr), s.cfg.wf → i.direction = .command → s.env.transport = none →
    ∃ n, exec i s = .next (failedState s (encode s.cfg i) n)

/-! ### The stream parser -/

/-- R90 to R97: the whole transition table. Every row's guard gives that row's next state, all else unchanged; the
accepting row dispatches the buffered frame and resynchronizes. -/
def Obligations.RxStepFollowsTheTransitionTable : Prop :=
  ∀ (s : State) (b : Byte), s.parser.ok s.cfg = true →
    (s.parser.st = .awaitSom1 → b = s.cfg.som1 → rxStep b s = .next (parserAt s .awaitSom2 1 s.parser.len)) ∧
    (s.parser.st = .awaitSom1 → b ≠ s.cfg.som1 → rxStep b s = .next s) ∧
    (s.parser.st = .awaitSom2 → b = s.cfg.som2 → rxStep b s = .next (parserAt s .awaitLen 2 s.parser.len)) ∧
    (s.parser.st = .awaitSom2 → b ≠ s.cfg.som2 → rxStep b s = .next (droppedState s .badSom2)) ∧
    (s.parser.st = .awaitLen → 5 ≤ b.toNat → b.toNat ≤ s.cfg.maxLen →
      rxStep b s = .next (parserAt s .accumulatingPayload 3 b)) ∧
    (s.parser.st = .awaitLen → (b.toNat < 5 ∨ s.cfg.maxLen < b.toNat) → rxStep b s = .next (droppedState s .badLen)) ∧
    (s.parser.st = .accumulatingPayload → s.parser.off.toNat + 1 < s.parser.len.toNat - 1 →
      rxStep b s = .next { s with parser := { s.parser with
        buf := s.parser.buf.set (s.parser.off.toNat - 3) b, off := s.parser.off + 1 } }) ∧
    (s.parser.st = .accumulatingPayload → s.parser.off.toNat + 1 = s.parser.len.toNat - 1 →
      rxStep b s = .next { s with parser := { s.parser with
        buf := s.parser.buf.set (s.parser.off.toNat - 3) b, off := s.parser.off + 1, st := .awaitEom } }) ∧
    (s.parser.st = .awaitEom → b ≠ s.cfg.eom → rxStep b s = .next (droppedState s .badEom)) ∧
    (s.parser.st = .awaitEom → b = s.cfg.eom →
      ∃ op p u, s.parser.buf.take (s.parser.len.toNat - 4) = op :: p ∧ dispatch op p s = .next u ∧
        rxStep b s = .next { u with parser :=
          { st := .awaitSom1, off := 0, len := 0, buf := s.parser.buf, frameReady := false } })

/-- R100: in every parser state of R26 and for every byte, `RxStep` answers a next state, again within R26. -/
def Obligations.RxStepIsTotalOnTheInvariant : Prop :=
  ∀ (s : State) (b : Byte), s.cfg.wf → s.parser.ok s.cfg = true →
    ∃ t, rxStep b s = .next t ∧ t.parser.ok t.cfg = true

/-- Assumption 3 (93_implementation_defined.md U3): an `RxStep` outside R26 stops by name. -/
def Obligations.RxStepOutsideTheInvariantIsStuck : Prop :=
  ∀ (s : State) (b : Byte), s.parser.ok s.cfg = false → rxStep b s = .fault .parserOutsideInvariant

/-- R99: every buffer write is within the frame's length and the buffer's capacity. -/
def Obligations.BufferWritesStayInBounds : Prop :=
  ∀ s : State, s.cfg.wf → s.parser.ok s.cfg = true → s.parser.st = .accumulatingPayload →
    3 ≤ s.parser.off.toNat ∧ s.parser.off.toNat - 3 ≤ s.parser.len.toNat - 5 ∧
    s.parser.len.toNat - 5 ≤ s.cfg.maxLen - 5 ∧ s.cfg.maxLen - 5 < s.cfg.maxLen - 4 ∧
    s.parser.buf.length = s.cfg.maxLen - 4

/-- R87, forward: feeding a valid frame to a parser at rest dispatches it exactly once, at its last byte, nothing
earlier, and leaves the parser at rest. -/
def Obligations.ParserDispatchesAValidFrameExactlyOnce : Prop :=
  ∀ (s : State) (r : List Byte) (op : Byte) (p : List Byte), s.cfg.wf → s.AtRest →
    validate s.cfg r = .ok (op, p) →
    (∀ k, k < r.length → ∃ m, pollBytes (r.take k) s = .next m ∧
      m.status = s.status ∧ m.env = s.env ∧ m.cfg = s.cfg) ∧
    DeliversFrame r op p [] s

/-- R87, converse: whenever the parser stands before an EOM byte that would dispatch `(op, p)`, the bytes it consumed
last, with that byte, are a valid frame of `(op, p)`. -/
def Obligations.DispatchedFramesAreTheLastBytesConsumed : Prop :=
  ∀ (s : State) (bs : List Byte) (m : State) (op : Byte) (p : List Byte), s.cfg.wf → s.AtRest →
    pollBytes bs s = .next m → m.parser.st = .awaitEom →
    m.parser.buf.take (m.parser.len.toNat - 4) = op :: p →
    ∃ pre r, bs = pre ++ r ∧ r.length + 1 = m.parser.len.toNat ∧ validate s.cfg (r ++ [s.cfg.eom]) = .ok (op, p)

/-- R102: any split of a byte stream into polls gives the same end state and the same trace as one poll. -/
def Obligations.PollingIsChunkSizeIndependent : Prop :=
  ∀ (chunks : List (List Byte)) (s : State),
    pollBytes chunks.flatten s = chunks.foldl (fun o chunk => andThen o (pollBytes chunk)) (.next s)

/-- R103 case 1: a frame whose EOM byte is corrupted does nothing before its last byte, is dropped with `BadEom` at that byte
with no status register changed, and the next valid frame is dispatched. -/
def Obligations.CorruptedEomLosesOnlyItsFrame : Prop :=
  ∀ (s : State) (f g : List Byte) (x op op' : Byte) (p p' : List Byte), s.cfg.wf → s.AtRest →
    validate s.cfg f = .ok (op, p) → validate s.cfg g = .ok (op', p') → x ≠ s.cfg.eom →
    (∀ k, k < f.length → ∃ m, pollBytes ((f.set (f.length - 1) x).take k) s = .next m ∧
      m.status = s.status ∧ m.env = s.env ∧ m.cfg = s.cfg) ∧
    (∃ t, pollBytes (f.set (f.length - 1) x) s = .next t ∧ t.status = s.status ∧
      t.env = { s.env with trace := s.env.trace ++ [.dropped .badEom] } ∧ t.cfg = s.cfg ∧ t.AtRest) ∧
    DeliversFrame (f.set (f.length - 1) x ++ g) op' p' [.dropped .badEom] s

/-- R103 case 2: a frame whose SOM1, SOM2 or LEN byte is corrupted (LEN to a value out of range) dispatches nothing, and
the next valid frame is dispatched, provided no later byte of the frame is SOM1. -/
def Obligations.CorruptedHeaderRecoversWithoutAFalseStart : Prop :=
  ∀ (s : State) (f g : List Byte) (k : Nat) (x op op' : Byte) (p p' : List Byte) (evs : List Event),
    s.cfg.wf → s.AtRest → validate s.cfg f = .ok (op, p) → validate s.cfg g = .ok (op', p') →
    f[k]? ≠ some x →
    ((k = 0 ∧ evs = []) ∨ (k = 1 ∧ evs = [.dropped .badSom2]) ∨
      (k = 2 ∧ (x.toNat < 5 ∨ s.cfg.maxLen < x.toNat) ∧ evs = [.dropped .badLen])) →
    (∀ b ∈ f.drop (k + 1), b ≠ s.cfg.som1) →
    DeliversFrame (f.set k x ++ g) op' p' evs s

/-- R103 case 3, a shorter LEN: the byte at index `x - 1` is checked as EOM; if it is EOM a truncated frame is dispatched,
and if it is not the frame is dropped there. -/
def Obligations.ShortenedLenIsCheckedAtTheWrongEom : Prop :=
  ∀ (s : State) (f : List Byte) (x op : Byte) (p : List Byte), s.cfg.wf → s.AtRest →
    validate s.cfg f = .ok (op, p) → 5 ≤ x.toNat → x.toNat < f.length →
    (f[x.toNat - 1]? = some s.cfg.eom →
      DeliversFrame ((f.set 2 x).take x.toNat) op ((f.take (x.toNat - 1)).drop 4) [] s) ∧
    (f[x.toNat - 1]? ≠ some s.cfg.eom →
      ∃ t, pollBytes ((f.set 2 x).take x.toNat) s = .next t ∧ t.status = s.status ∧
        t.env = { s.env with trace := s.env.trace ++ [.dropped .badEom] } ∧ t.AtRest)

/-- R103 case 4, R165: a corrupted opcode or payload byte is not detected; the frame is dispatched with that byte. -/
def Obligations.CorruptedPayloadIsNotDetected : Prop :=
  ∀ (s : State) (f : List Byte) (k : Nat) (x op : Byte) (p : List Byte), s.cfg.wf → s.AtRest →
    validate s.cfg f = .ok (op, p) → 3 ≤ k → k ≤ f.length - 2 →
    ∃ op' p', op' :: p' = (op :: p).set (k - 3) x ∧ DeliversFrame (f.set k x) op' p' [] s

/-- R146: one `RxStep` records at most one outcome: nothing, one drop, or what one dispatch records. -/
def Obligations.OneRxStepRecordsOneOutcome : Prop :=
  ∀ (s t : State) (b : Byte), rxStep b s = .next t →
    ∃ evs, t.env = { s.env with trace := s.env.trace ++ evs } ∧
      (evs = [] ∨ (∃ cause, evs = [.dropped cause]) ∨ (∃ op p, evs = [.dispatched op p]) ∨
       (∃ op, evs = [.ignored op]) ∨ (∃ op, evs = [.lenError op]) ∨
       (∃ p, evs = [.lenError s.cfg.opRspStatus, .dispatched s.cfg.opRspStatus p]))

/-! ### Responses -/

/-- R105, R111: `Dispatch` runs the response row of the opcode, and ignores an opcode that is none of the four, a command
opcode among them: only the event is recorded. -/
def Obligations.DispatchRunsTheRowOrIgnores : Prop :=
  ∀ (s : State) (op : Byte) (p : List Byte), s.cfg.wf →
    (op = s.cfg.opRspVersionString → dispatch op p s = exec (.rspVersionString p) s) ∧
    (op = s.cfg.opRspSystemInfo → dispatch op p s = exec (.rspSystemInfo p) s) ∧
    (op = s.cfg.opRspTrackReport → dispatch op p s = exec (.rspTrackReport p) s) ∧
    (op = s.cfg.opRspStatus → dispatch op p s = exec (.rspStatus p) s) ∧
    (op ∉ s.cfg.responseOpcodes → dispatch op p s = .next (appliedState s s.status [.ignored op]))

/-- R106: a version-string response completes for every payload; it replaces the version with the payload's first
`VERSION_MAX` bytes and sets its flag. -/
def Obligations.VersionResponseReplacesTheVersion : Prop :=
  ∀ (s : State) (p : List Byte),
    exec (.rspVersionString p) s =
      .next (appliedState s { s.status with version := p.take s.cfg.versionMax, versionRcvd := true }
        [.dispatched s.cfg.opRspVersionString p])

/-- R107, R112, R113: a sys-info response completes for every payload; from three bytes on it stores the counts and sets
its flag, and a shorter one sets `len_err` only. -/
def Obligations.SysInfoResponseStoresTheCounts : Prop :=
  ∀ (s : State) (p : List Byte),
    (∀ voices t0 t1 rest, p = voices :: t0 :: t1 :: rest →
      ∃ n : Half, n.toNat = t0.toNat + 256 * t1.toNat ∧
        exec (.rspSystemInfo p) s =
          .next (appliedState s { s.status with numVoices := voices, numTracks := n, sysinfoRcvd := true }
            [.dispatched s.cfg.opRspSystemInfo p])) ∧
    (p.length < 3 →
      exec (.rspSystemInfo p) s =
        .next (appliedState s { s.status with lenErr := true } [.lenError s.cfg.opRspSystemInfo]))

/-- R108, R109, R112, R113: a track report completes for every payload. From four bytes on, a voice out of range changes
nothing, a nonzero state byte records the 1-based track in that slot only, and a zero one clears the slot only if it
holds that track; a shorter payload sets `len_err` only. -/
def Obligations.TrackReportUpdatesOneVoice : Prop :=
  ∀ (s : State) (p : List Byte),
    (∀ t0 t1 v x rest, p = t0 :: t1 :: v :: x :: rest →
      ∃ t : TrackNo, t.toNat = t0.toNat + 256 * t1.toNat + 1 ∧
        exec (.rspTrackReport p) s =
          .next (appliedState s { s.status with voice :=
            if s.cfg.numVoices ≤ v.toNat then s.status.voice
            else if x ≠ 0 then s.status.voice.set v.toNat (some t)
            else if s.status.voice[v.toNat]? = some (some t) then s.status.voice.set v.toNat none
            else s.status.voice } [.dispatched s.cfg.opRspTrackReport p])) ∧
    (p.length < 4 →
      exec (.rspTrackReport p) s =
        .next (appliedState s { s.status with lenErr := true } [.lenError s.cfg.opRspTrackReport]))

/-- R110: a status response completes for every payload. The list becomes the first `PLAYING_CAP` whole entries as on the
wire, the flag is set, and an odd length is flagged as well. That an odd payload longer than `2 * PLAYING_CAP` bytes is
flagged too is log entry 28 (DEDUCED), where R113 could be read otherwise. -/
def Obligations.StatusResponseReplacesThePlayingList : Prop :=
  ∀ (s : State) (p : List Byte),
    ∃ entries : List Half,
      entries.length = min (p.length / 2) s.cfg.playingCap ∧
      (∀ i b0 b1, i < entries.length → p[2 * i]? = some b0 → p[2 * i + 1]? = some b1 →
        ∃ n, entries[i]? = some n ∧ n.toNat = b0.toNat + 256 * b1.toNat) ∧
      exec (.rspStatus p) s =
        .next (appliedState s { s.status with
            playing := entries
            statusRcvd := true
            lenErr := if p.length % 2 = 1 then true else s.status.lenErr }
          (if p.length % 2 = 1 then [.lenError s.cfg.opRspStatus, .dispatched s.cfg.opRspStatus p]
           else [.dispatched s.cfg.opRspStatus p]))

/-! ### The whole machine -/

/-- A step issues the operation at the head of the host's queue and no other: a command is `exec` of it, at the state with
that operation taken off. -/
def Obligations.StepRunsTheIssuedCommand : Prop :=
  ∀ (s : State) (i : Instr) (rest : List HostOp), s.env.ops = .issue i :: rest → i.direction = .command →
    step s = exec i { s with env := { s.env with ops := rest } }

/-- A command word placed by `withFetchWord` is what the very next step runs, with nothing else of the block changed
(the transport open, the queue as it was). -/
def Obligations.FetchedCommandIsTheNextStep : Prop :=
  ∀ (s : State) (nbits w : Nat) (i : Instr), decode s.cfg .command (tableFrame s.cfg nbits w) = .ok i →
    ∃ l, step (s.withFetchWord nbits w) = exec i { s with env := { s.env with transport := some l } }

/-- When the bytes buffered by the parser, with the EOM byte now given to it, decode to a response `i`, the step is `exec`
of `i` and the parser back at rest (R96, R105). A directly issued `RxStep` takes no byte from the transport (log entry 29,
DESIGN CHOICE). -/
def Obligations.StepOnTheLastByteRunsTheResponse : Prop :=
  ∀ (s : State) (rest : List HostOp) (i : Instr), s.cfg.wf → s.parser.ok s.cfg = true → s.parser.st = .awaitEom →
    s.env.ops = .rxStep s.cfg.eom :: rest →
    decode s.cfg .response ([s.cfg.som1, s.cfg.som2, s.parser.len] ++
      s.parser.buf.take (s.parser.len.toNat - 4) ++ [s.cfg.eom]) = .ok i →
    ∃ u, exec i { s with env := { s.env with ops := rest } } = .next u ∧
      step s = .next { u with parser :=
        { st := .awaitSom1, off := 0, len := 0, buf := s.parser.buf, frameReady := false } }

/-- When the bytes the transport holds are one whole frame that decodes to a response `i`, a poll from rest is `exec` of
`i`, with the bytes consumed and the parser at rest again. It holds of a transport not yet opened as well, where R158 says
nothing of a poll: that is log entry 27 (DESIGN CHOICE). -/
def Obligations.PollOfAWholeFrameRunsItsResponse : Prop :=
  ∀ (s : State) (rest : List HostOp) (i : Instr), s.cfg.wf → s.AtRest → s.env.ops = .poll :: rest →
    decode s.cfg .response s.env.rx = .ok i →
    ∃ u t, exec i { s with env := { s.env with rx := [], ops := rest } } = .next u ∧ step s = .next t ∧
      t.status = u.status ∧ t.env = u.env ∧ t.cfg = s.cfg ∧ t.AtRest

/-- R6, R155, R158 and log entries 1, 2 and 17: a well-formed configuration constructs an instance with every register at its
reset value and within the invariant (the buffer's zeros are log entry 2 and are not stated here), and an ill-formed one is
refused. `State.reset`'s configuration is log entry 1; that `VERSION_MAX` or `PLAYING_CAP` above 255 is ill-formed is log
entry 17 (DEDUCED), R6 giving these no upper bound. -/
def Obligations.ConstructionResetsOrRefuses : Prop :=
  State.reset.Inv ∧
  ∀ c : Cfg,
    (c.wf → ∃ t, construct c = .next t ∧ t.cfg = c ∧ t.Inv ∧
      t.parser.st = .awaitSom1 ∧ t.parser.off = 0 ∧ t.parser.len = 0 ∧ t.parser.frameReady = false ∧
      t.status.voice = List.replicate c.numVoices none ∧ t.status.version = [] ∧ t.status.versionRcvd = false ∧
      t.status.numVoices = 0 ∧ t.status.numTracks = 0 ∧ t.status.sysinfoRcvd = false ∧ t.status.playing = [] ∧
      t.status.statusRcvd = false ∧ t.status.lenErr = false) ∧
    (¬ c.wf → construct c = .refused .illFormedConfig)

/-- R156: the reset input, from any state at all, puts every register at its reset value and keeps the configuration (the
buffer's contents, which the rule leaves unspecified, are not stated). -/
def Obligations.ResetWritesEveryRegister : Prop :=
  ∀ (s : State) (rest : List HostOp), s.env.ops = .reset :: rest →
    ∃ t, step s = .next t ∧ t.cfg = s.cfg ∧
      t.parser.st = .awaitSom1 ∧ t.parser.off = 0 ∧ t.parser.len = 0 ∧ t.parser.frameReady = false ∧
      t.status = { voice := List.replicate s.cfg.numVoices none, version := [], versionRcvd := false, numVoices := 0,
                   numTracks := 0, sysinfoRcvd := false, playing := [], statusRcvd := false, lenErr := false }

/-- The invariant: every step keeps the configuration well-formed, the parser within R26 and the status model within its
bounds, from every state that meets it. -/
def Obligations.EveryStepKeepsTheInvariant : Prop :=
  ∀ s t : State, s.Inv → step s = .next t → t.Inv

/-- R154's progress: from every state of the invariant a step answers a next state, whatever operation is next, a command
operation being given a command (a response row is `ResponsesAreNotIssued`). That a query ends when the script of its wait
does is log entry 5 (DESIGN CHOICE), that a poll before the transport is opened goes on is log entry 27 (DESIGN CHOICE), and
that the host may call `Validate` is log entry 30 (DESIGN CHOICE). -/
def Obligations.EveryOperationReturns : Prop :=
  ∀ s : State, s.Inv → (∀ i rest, s.env.ops = .issue i :: rest → i.direction = .command) → ∃ t, step s = .next t

/-- Assumption 14: a response row given to the command input is refused by name. -/
def Obligations.ResponsesAreNotIssued : Prop :=
  ∀ (s : State) (i : Instr) (rest : List HostOp), s.env.ops = .issue i :: rest → i.direction = .response →
    step s = .refused .responseIssuedByHost

/-- R41: no operation writes the configuration. -/
def Obligations.ConfigurationIsNeverWritten : Prop :=
  ∀ s t : State, step s = .next t → t.cfg = s.cfg

/-- R36: write access, complete. An operation that gives the parser no byte, other than `Reset`, writes no register (no
command, named operation, cross-fade or accessor does). The others write registers only as the `RxStep`s of their own bytes
do: `RxStep(b)` those of `b`, a poll those of all the transport holds, which it leaves empty, and a query none before its
request is sent and then those of the bytes its wait polled. And an `RxStep` writes a status register only by dispatching a
response frame at its EOM byte. Which bytes a query polls follows the model's script of its wait (log entries 5 and 26,
DESIGN CHOICE), a poll does not ask whether the transport is open (log entry 27, DESIGN CHOICE), and that
`RxStep(b)` leaves the transport's bytes where they are is log entry 29 (DESIGN CHOICE). -/
def Obligations.WriteAccessIsComplete : Prop :=
  (∀ (s t : State) (op : HostOp) (rest : List HostOp), s.env.ops = op :: rest → step s = .next t →
    (op.feedsParser = false → op ≠ .reset → SameBlock s t) ∧
    (∀ b, op = .rxStep b → ∃ m, rxStep b s = .next m ∧ SameBlock m t ∧ t.env.rx = s.env.rx) ∧
    (op = .poll → ∃ m, pollBytes s.env.rx s = .next m ∧ SameBlock m t ∧ t.env.rx = []) ∧
    (∀ k, op = .query k →
      ((sendFrame (requestOpcode s.cfg k) [] s).1 ≠ .ok →
        SameBlock s t ∧ t.env.rx = s.env.rx ∧ t.env.waitTurns = s.env.waitTurns) ∧
      ((sendFrame (requestOpcode s.cfg k) [] s).1 = .ok →
        ∃ bs m, PolledByWait s t bs ∧ pollBytes bs s = .next m ∧ SameBlock m t))) ∧
  (∀ (s t : State) (b : Byte), rxStep b s = .next t → t.status ≠ s.status →
    s.parser.st = .awaitEom ∧ b = s.cfg.eom ∧
    ∃ op p, s.parser.buf.take (s.parser.len.toNat - 4) = op :: p ∧ op ∈ s.cfg.responseOpcodes)

/-- R157, R29, R32, R34, R35: the received flags and `len_err` are cleared by nothing but `Reset`. -/
def Obligations.FlagsAreStickyUntilReset : Prop :=
  ∀ (s t : State) (op : HostOp) (rest : List HostOp), s.env.ops = op :: rest → op ≠ .reset → step s = .next t →
    (s.status.versionRcvd = true → t.status.versionRcvd = true) ∧
    (s.status.sysinfoRcvd = true → t.status.sysinfoRcvd = true) ∧
    (s.status.statusRcvd = true → t.status.statusRcvd = true) ∧
    (s.status.lenErr = true → t.status.lenErr = true)

/-- R13, R51, R54: what was sent, observed or returned is never taken back; every step only appends to the tx stream, the
trace and the replies. -/
def Obligations.OutputsOnlyGrow : Prop :=
  ∀ s t : State, step s = .next t →
    (∃ bytes, t.env.tx = s.env.tx ++ bytes) ∧ (∃ evs, t.env.trace = s.env.trace ++ evs) ∧
    (∃ rs, t.env.replies = s.env.replies ++ rs)

/-- R42, R152: a step of one instance leaves every other instance as it was. -/
def Obligations.InstancesShareNoState : Prop :=
  ∀ (fleet fleet' : List State) (k j : Nat), stepInstance k fleet = .next fleet' → j ≠ k → fleet'[j]? = fleet[j]?

/-! ### The facade -/

/-- R131, R161 (the stop byte as assumption 10 reads it): with the transport open, a cross-fade whose writes all succeed
sends its four frames in order; one whose write number `k` fails has sent the frames before it whole and a part of that one,
sends none after it, takes nothing back, and returns `TransportFailure`. With the transport not opened the first write fails
(assumption 13). No register changes. -/
def Obligations.CrossfadeSendsInOrderAndStopsAtAFailure : Prop :=
  ∀ (s : State) (source target gain time : Int), s.cfg.wf →
    (s.env.transport ≠ none → (∀ a ∈ s.env.writeAnswers.take 4, a = WriteAnswer.ok) →
      runOp (.crossfade source target gain time) s = .next { s with env := { s.env with
        tx := s.env.tx ++ (crossfadeBytes s.cfg source target gain time).flatten
        writeAnswers := s.env.writeAnswers.drop 4
        trace := s.env.trace ++ (crossfadeBytes s.cfg source target gain time).map .sent
        replies := s.env.replies ++ [.send .ok] } }) ∧
    (s.env.transport ≠ none → ∀ k n answers f, s.env.writeAnswers = List.replicate k .ok ++ .fail n :: answers →
      (crossfadeBytes s.cfg source target gain time)[k]? = some f →
      runOp (.crossfade source target gain time) s = .next { s with env := { s.env with
        tx := s.env.tx ++ ((crossfadeBytes s.cfg source target gain time).take k).flatten ++ f.take n
        writeAnswers := answers
        trace := s.env.trace ++ ((crossfadeBytes s.cfg source target gain time).take k).map .sent ++ [.sendFailed f]
        replies := s.env.replies ++ [.send .transportFailure] } }) ∧
    (s.env.transport = none → ∃ n f, (crossfadeBytes s.cfg source target gain time)[0]? = some f ∧
      runOp (.crossfade source target gain time) s = .next (failedState s f n))

/-- R132, R116: each named operation is one command frame. R132 names the command of every one but load, of which it says
"The split of "play" into solo and poly and the load action are [from general knowledge, not in source]; WTSL names only
`PLAY_SOLO`"; that load is `TRACK_CONTROL` with R116's `TRK_LOAD` is log entry 31 (DEDUCED). -/
def Obligations.NamedOperationsAreSingleCommands : Prop :=
  ∀ (s : State) (t g m : Int) (e : Bool8),
    runOp (.named (.playSolo t)) s = exec (.trackControl s.cfg.trkPlaySolo.toNat t) s ∧
    runOp (.named (.playPoly t)) s = exec (.trackControl s.cfg.trkPlayPoly.toNat t) s ∧
    runOp (.named (.stop t)) s = exec (.trackControl s.cfg.trkStop.toNat t) s ∧
    runOp (.named (.pause t)) s = exec (.trackControl s.cfg.trkPause.toNat t) s ∧
    runOp (.named (.resume t)) s = exec (.trackControl s.cfg.trkResume.toNat t) s ∧
    runOp (.named (.loopOn t)) s = exec (.trackControl s.cfg.trkLoopOn.toNat t) s ∧
    runOp (.named (.loopOff t)) s = exec (.trackControl s.cfg.trkLoopOff.toNat t) s ∧
    runOp (.named (.load t)) s = exec (.trackControl s.cfg.trkLoad.toNat t) s ∧
    runOp (.named (.trackGain t g)) s = exec (.trackVolume t g) s ∧
    runOp (.named (.masterGain g)) s = exec (.masterVolume g) s ∧
    runOp (.named (.fade t g m e)) s = exec (.trackFade t g m e) s ∧
    runOp (.named (.bankSelect t)) s = exec (.setTriggerBank t) s ∧
    runOp (.named (.reportingEnable e)) s = exec (.setReporting e) s ∧
    runOp (.named (.ampPower e)) s = exec (.ampPower e) s ∧
    runOp (.named .resumeAllSync) s = exec .resumeAllSync s ∧
    runOp (.named .stopAll) s = exec .stopAll s ∧
    runOp (.named (.sampleRateOffset t)) s = exec (.samplerateOffset t) s

/-- R37, R38: an accessor changes no register and returns what the rule says; `isTrackPlaying` is true exactly when some
slot holds the track. -/
def Obligations.AccessorsReadTheStatusModel : Prop :=
  ∀ (s : State) (a : Accessor), s.status.ok s.cfg →
    ∃ r, runOp (.read a) s = .next { s with env := { s.env with replies := s.env.replies ++ [.reading r] } } ∧
    (a = .version → r = if s.status.versionRcvd then .version (s.status.version.takeWhile (· != 0)) else .unavailable) ∧
    (a = .numVoices → r = if s.status.sysinfoRcvd then .numVoices s.status.numVoices else .unavailable) ∧
    (a = .numTracks → r = if s.status.sysinfoRcvd then .numTracks s.status.numTracks else .unavailable) ∧
    (a = .playing → r = if s.status.statusRcvd then .playing s.status.playing else .unavailable) ∧
    (a = .lenErr → r = .lenErr s.status.lenErr) ∧
    (∀ v, a = .voice v →
      (v < s.cfg.numVoices → ∃ e, s.status.voice[v]? = some e ∧ r = .voice e) ∧
      (s.cfg.numVoices ≤ v → r = .voice none)) ∧
    (∀ t, a = .trackPlaying t →
      ∃ b, r = .trackPlaying b ∧ (b = true ↔
        ∃ (v : Nat) (e : TrackNo), s.status.voice[v]? = some (some e) ∧ e.toNat = t))

/-- R134, R135 kind by kind, R154: a query whose request was sent always ends. `Version` sends the `GET_VERSION` frame and
answers from `version_rcvd` with the version's bytes before the first 0x00, `SysInfo` sends `GET_SYS_INFO` and answers from
`sysinfo_rcvd` with the pair of counts, `Status` sends `GET_STATUS` and answers from `status_rcvd` with the playing list; with
the flag 0 the answer is `unavailable`. When the wait ends is the model's script (log entries 5 and 26, DESIGN CHOICE). -/
def Obligations.QueryEndsAndAnswersFromItsFlag : Prop :=
  ∀ s : State, s.Inv → s.env.nextWrite = .ok →
    (∃ t, query .version s = .next t ∧
      t.env.tx = s.env.tx ++ [s.cfg.som1, s.cfg.som2, 5, s.cfg.opGetVersion, s.cfg.eom] ∧
      t.env.replies = s.env.replies ++ [.query .version
        (if t.status.versionRcvd then .version (t.status.version.takeWhile (· != 0)) else .unavailable)]) ∧
    (∃ t, query .sysInfo s = .next t ∧
      t.env.tx = s.env.tx ++ [s.cfg.som1, s.cfg.som2, 5, s.cfg.opGetSysInfo, s.cfg.eom] ∧
      t.env.replies = s.env.replies ++ [.query .sysInfo
        (if t.status.sysinfoRcvd then .sysInfo t.status.numVoices t.status.numTracks else .unavailable)]) ∧
    (∃ t, query .status s = .next t ∧
      t.env.tx = s.env.tx ++ [s.cfg.som1, s.cfg.som2, 5, s.cfg.opGetStatus, s.cfg.eom] ∧
      t.env.replies = s.env.replies ++ [.query .status
        (if t.status.statusRcvd then .status t.status.playing else .unavailable)])

/-- R134's loop, one iteration: a query whose request is accepted polls what the transport holds with what arrives, then ends
with its value if its flag is set, whatever `elapsed()` says, then ends with `unavailable` if the bound has elapsed, and else
goes on as the same query does from there, no second request being sent. The iteration is a turn of the model's script (log
entries 11, DEDUCED, and 26, DESIGN CHOICE). -/
def Obligations.QueryIterationTestsTheFlagThenTheBound : Prop :=
  ∀ (s : State) (k : QueryKind) (turn : WaitTurn) (rest : List WaitTurn), s.Inv → s.env.nextWrite = .ok →
    s.env.waitTurns = turn :: rest →
    ∃ m t, pollBytes (s.env.rx ++ turn.arrivals) s = .next m ∧ query k s = .next t ∧
      (m.status.flag k = true → SameBlock m t ∧ t.env.rx = turn.late ∧ t.env.waitTurns = rest ∧
        t.env.replies = s.env.replies ++ [.query k (queryValue m.status k)]) ∧
      (m.status.flag k = false → turn.elapsed = true → SameBlock m t ∧ t.env.rx = turn.late ∧ t.env.waitTurns = rest ∧
        t.env.replies = s.env.replies ++ [.query k .unavailable]) ∧
      (m.status.flag k = false → turn.elapsed = false →
        ∃ u, query k { m with env := { s.env with rx := turn.late, waitTurns := rest } } = .next u ∧
          SameBlock u t ∧ t.env.rx = u.env.rx ∧ t.env.waitTurns = u.env.waitTurns ∧ t.env.replies = u.env.replies ∧
          t.env.tx = u.env.tx)

/-- R133, R134: a query whose request cannot be written returns `TransportFailure` and performs no poll. -/
def Obligations.QueryWithoutARequestPollsNothing : Prop :=
  ∀ (s : State) (k : QueryKind) (n : Nat), s.cfg.wf → s.env.nextWrite = .fail n →
    query k s = .next (failedState s [s.cfg.som1, s.cfg.som2, 5, requestOpcode s.cfg k, s.cfg.eom] n)

/-- R135: a query made when its flag is already set ends after its first poll, whatever arrives, with the cached value (the
iterations are the model's script, log entries 5 and 26, DESIGN CHOICE). -/
def Obligations.StickyFlagAnswersAfterOnePoll : Prop :=
  ∀ (s : State) (k : QueryKind), s.Inv → s.env.nextWrite = .ok → s.status.flag k = true →
    ∃ t, query k s = .next t ∧ t.env.waitTurns = s.env.waitTurns.tail ∧
      t.env.replies = s.env.replies ++ [.query k (queryValue t.status k)]

/-- R136, R143: a query whose flag is clear, against a transport that delivers nothing, returns `unavailable`, and every
register keeps its value. -/
def Obligations.SilentTransportTimesTheQueryOut : Prop :=
  ∀ (s : State) (k : QueryKind), s.cfg.wf → s.env.nextWrite = .ok → s.status.flag k = false → s.env.rx = [] →
    (∀ turn ∈ s.env.waitTurns, turn.arrivals = [] ∧ turn.late = []) →
    ∃ t, query k s = .next t ∧ SameBlock s t ∧
      t.env.replies = s.env.replies ++ [.query k .unavailable] ∧
      t.env.trace = s.env.trace ++
        [.sent [s.cfg.som1, s.cfg.som2, 5, requestOpcode s.cfg k, s.cfg.eom], .queryDone k .unavailable]

/-- R168: `discardBuffered()` empties the transport's inbound buffer and changes nothing else; a frame in progress stays
in progress. It holds of a transport not yet opened as well, where R158 says nothing of this operation: that is log entry 27
(DESIGN CHOICE). -/
def Obligations.DiscardTouchesOnlyTheTransport : Prop :=
  ∀ (s : State) (rest : List HostOp), s.env.ops = .discardBuffered :: rest →
    step s = .next { s with env := { s.env with rx := [], ops := rest } }
end

