-- ==== Sys2Proof/Laws/State.lean ====
section
/-! SUPPORT. One lemma per field per update of the state, true by rfl. -/

namespace Sys2Proof.Machine

variable (s : State)

/-! ### `record` -/

@[simp] theorem record_cfg (e : Event) : (s.record e).cfg = s.cfg := rfl
@[simp] theorem record_parser (e : Event) : (s.record e).parser = s.parser := rfl
@[simp] theorem record_status (e : Event) : (s.record e).status = s.status := rfl
@[simp] theorem record_env_transport (e : Event) : (s.record e).env.transport = s.env.transport := rfl
@[simp] theorem record_env_rx (e : Event) : (s.record e).env.rx = s.env.rx := rfl
@[simp] theorem record_env_tx (e : Event) : (s.record e).env.tx = s.env.tx := rfl
@[simp] theorem record_env_writeAnswers (e : Event) : (s.record e).env.writeAnswers = s.env.writeAnswers := rfl
@[simp] theorem record_env_waitTurns (e : Event) : (s.record e).env.waitTurns = s.env.waitTurns := rfl
@[simp] theorem record_env_ops (e : Event) : (s.record e).env.ops = s.env.ops := rfl
@[simp] theorem record_env_trace (e : Event) : (s.record e).env.trace = s.env.trace ++ [e] := rfl
@[simp] theorem record_env_replies (e : Event) : (s.record e).env.replies = s.env.replies := rfl

/-! ### `answer` -/

@[simp] theorem answer_cfg (r : Reply) : (s.answer r).cfg = s.cfg := rfl
@[simp] theorem answer_parser (r : Reply) : (s.answer r).parser = s.parser := rfl
@[simp] theorem answer_status (r : Reply) : (s.answer r).status = s.status := rfl
@[simp] theorem answer_env_transport (r : Reply) : (s.answer r).env.transport = s.env.transport := rfl
@[simp] theorem answer_env_rx (r : Reply) : (s.answer r).env.rx = s.env.rx := rfl
@[simp] theorem answer_env_tx (r : Reply) : (s.answer r).env.tx = s.env.tx := rfl
@[simp] theorem answer_env_writeAnswers (r : Reply) : (s.answer r).env.writeAnswers = s.env.writeAnswers := rfl
@[simp] theorem answer_env_waitTurns (r : Reply) : (s.answer r).env.waitTurns = s.env.waitTurns := rfl
@[simp] theorem answer_env_ops (r : Reply) : (s.answer r).env.ops = s.env.ops := rfl
@[simp] theorem answer_env_trace (r : Reply) : (s.answer r).env.trace = s.env.trace := rfl
@[simp] theorem answer_env_replies (r : Reply) : (s.answer r).env.replies = s.env.replies ++ [r] := rfl

/-! ### `setStatus` -/

@[simp] theorem setStatus_cfg (x : Status) : (s.setStatus x).cfg = s.cfg := rfl
@[simp] theorem setStatus_parser (x : Status) : (s.setStatus x).parser = s.parser := rfl
@[simp] theorem setStatus_status (x : Status) : (s.setStatus x).status = x := rfl
@[simp] theorem setStatus_env (x : Status) : (s.setStatus x).env = s.env := rfl

/-! ### `setParser` -/

@[simp] theorem setParser_cfg (x : Parser) : (s.setParser x).cfg = s.cfg := rfl
@[simp] theorem setParser_parser (x : Parser) : (s.setParser x).parser = x := rfl
@[simp] theorem setParser_status (x : Parser) : (s.setParser x).status = s.status := rfl
@[simp] theorem setParser_env (x : Parser) : (s.setParser x).env = s.env := rfl

/-! ### `popOp` -/

@[simp] theorem popOp_cfg : (s.popOp).cfg = s.cfg := rfl
@[simp] theorem popOp_parser : (s.popOp).parser = s.parser := rfl
@[simp] theorem popOp_status : (s.popOp).status = s.status := rfl
@[simp] theorem popOp_env_transport : (s.popOp).env.transport = s.env.transport := rfl
@[simp] theorem popOp_env_rx : (s.popOp).env.rx = s.env.rx := rfl
@[simp] theorem popOp_env_tx : (s.popOp).env.tx = s.env.tx := rfl
@[simp] theorem popOp_env_writeAnswers : (s.popOp).env.writeAnswers = s.env.writeAnswers := rfl
@[simp] theorem popOp_env_waitTurns : (s.popOp).env.waitTurns = s.env.waitTurns := rfl
@[simp] theorem popOp_env_ops : (s.popOp).env.ops = s.env.ops.tail := rfl
@[simp] theorem popOp_env_trace : (s.popOp).env.trace = s.env.trace := rfl
@[simp] theorem popOp_env_replies : (s.popOp).env.replies = s.env.replies := rfl

/-! ### `resync` -/

@[simp] theorem resync_cfg : (resync s).cfg = s.cfg := rfl
@[simp] theorem resync_parser : (resync s).parser = s.parser.resynced := rfl
@[simp] theorem resync_status : (resync s).status = s.status := rfl
@[simp] theorem resync_env : (resync s).env = s.env := rfl

/-! ### `raiseMalformed` -/

@[simp] theorem raiseMalformed_cfg (c : Malformation) : (raiseMalformed c s).cfg = s.cfg := rfl
@[simp] theorem raiseMalformed_parser (c : Malformation) : (raiseMalformed c s).parser = s.parser.resynced := rfl
@[simp] theorem raiseMalformed_status (c : Malformation) : (raiseMalformed c s).status = s.status := rfl
@[simp] theorem raiseMalformed_env_transport (c : Malformation) : (raiseMalformed c s).env.transport = s.env.transport :=
  rfl
@[simp] theorem raiseMalformed_env_rx (c : Malformation) : (raiseMalformed c s).env.rx = s.env.rx := rfl
@[simp] theorem raiseMalformed_env_tx (c : Malformation) : (raiseMalformed c s).env.tx = s.env.tx := rfl
@[simp] theorem raiseMalformed_env_writeAnswers (c : Malformation) : (raiseMalformed c s).env.writeAnswers = s.env.writeAnswers :=
  rfl
@[simp] theorem raiseMalformed_env_waitTurns (c : Malformation) : (raiseMalformed c s).env.waitTurns = s.env.waitTurns :=
  rfl
@[simp] theorem raiseMalformed_env_ops (c : Malformation) : (raiseMalformed c s).env.ops = s.env.ops := rfl
@[simp] theorem raiseMalformed_env_trace (c : Malformation) : (raiseMalformed c s).env.trace = s.env.trace ++ [.dropped c] :=
  rfl
@[simp] theorem raiseMalformed_env_replies (c : Malformation) : (raiseMalformed c s).env.replies = s.env.replies :=
  rfl

/-! ### `resetRegisters` -/

@[simp] theorem resetRegisters_cfg : (resetRegisters s).cfg = s.cfg := rfl
@[simp] theorem resetRegisters_parser : (resetRegisters s).parser = Parser.reset s.cfg := rfl
@[simp] theorem resetRegisters_status : (resetRegisters s).status = Status.reset s.cfg := rfl
@[simp] theorem resetRegisters_env : (resetRegisters s).env = s.env := rfl

/-! ### `markReady` -/

@[simp] theorem markReady_cfg : (markReady s).cfg = s.cfg := rfl
@[simp] theorem markReady_parser : (markReady s).parser = { s.parser with frameReady := true } := rfl
@[simp] theorem markReady_status : (markReady s).status = s.status := rfl
@[simp] theorem markReady_env : (markReady s).env = s.env := rfl

/-! ### `flagLength` -/

@[simp] theorem flagLength_cfg (op : Byte) : (flagLength op s).cfg = s.cfg := rfl
@[simp] theorem flagLength_parser (op : Byte) : (flagLength op s).parser = s.parser := rfl
@[simp] theorem flagLength_status (op : Byte) : (flagLength op s).status = s.status.flagLenErr := rfl
@[simp] theorem flagLength_env_transport (op : Byte) : (flagLength op s).env.transport = s.env.transport := rfl
@[simp] theorem flagLength_env_rx (op : Byte) : (flagLength op s).env.rx = s.env.rx := rfl
@[simp] theorem flagLength_env_tx (op : Byte) : (flagLength op s).env.tx = s.env.tx := rfl
@[simp] theorem flagLength_env_writeAnswers (op : Byte) : (flagLength op s).env.writeAnswers = s.env.writeAnswers :=
  rfl
@[simp] theorem flagLength_env_waitTurns (op : Byte) : (flagLength op s).env.waitTurns = s.env.waitTurns := rfl
@[simp] theorem flagLength_env_ops (op : Byte) : (flagLength op s).env.ops = s.env.ops := rfl
@[simp] theorem flagLength_env_trace (op : Byte) : (flagLength op s).env.trace = s.env.trace ++ [.lenError op] := rfl
@[simp] theorem flagLength_env_replies (op : Byte) : (flagLength op s).env.replies = s.env.replies := rfl

/-! ### `wrote` -/

@[simp] theorem wrote_cfg (f : List Byte) : (s.wrote f).cfg = s.cfg := rfl
@[simp] theorem wrote_parser (f : List Byte) : (s.wrote f).parser = s.parser := rfl
@[simp] theorem wrote_status (f : List Byte) : (s.wrote f).status = s.status := rfl
@[simp] theorem wrote_env_transport (f : List Byte) : (s.wrote f).env.transport = s.env.transport := rfl
@[simp] theorem wrote_env_rx (f : List Byte) : (s.wrote f).env.rx = s.env.rx := rfl
@[simp] theorem wrote_env_tx (f : List Byte) : (s.wrote f).env.tx = s.env.tx ++ f := rfl
@[simp] theorem wrote_env_writeAnswers (f : List Byte) : (s.wrote f).env.writeAnswers = s.env.writeAnswers.tail := rfl
@[simp] theorem wrote_env_waitTurns (f : List Byte) : (s.wrote f).env.waitTurns = s.env.waitTurns := rfl
@[simp] theorem wrote_env_ops (f : List Byte) : (s.wrote f).env.ops = s.env.ops := rfl
@[simp] theorem wrote_env_trace (f : List Byte) : (s.wrote f).env.trace = s.env.trace ++ [.sent f] := rfl
@[simp] theorem wrote_env_replies (f : List Byte) : (s.wrote f).env.replies = s.env.replies := rfl

/-! ### `writeFailed` -/

@[simp] theorem writeFailed_cfg (f : List Byte) (n : Nat) : (s.writeFailed f n).cfg = s.cfg := rfl
@[simp] theorem writeFailed_parser (f : List Byte) (n : Nat) : (s.writeFailed f n).parser = s.parser := rfl
@[simp] theorem writeFailed_status (f : List Byte) (n : Nat) : (s.writeFailed f n).status = s.status := rfl
@[simp] theorem writeFailed_env_transport (f : List Byte) (n : Nat) : (s.writeFailed f n).env.transport = s.env.transport :=
  rfl
@[simp] theorem writeFailed_env_rx (f : List Byte) (n : Nat) : (s.writeFailed f n).env.rx = s.env.rx := rfl
@[simp] theorem writeFailed_env_tx (f : List Byte) (n : Nat) : (s.writeFailed f n).env.tx = s.env.tx ++ f.take n :=
  rfl
@[simp] theorem writeFailed_env_writeAnswers (f : List Byte) (n : Nat) : (s.writeFailed f n).env.writeAnswers = s.env.writeAnswers.tail :=
  rfl
@[simp] theorem writeFailed_env_waitTurns (f : List Byte) (n : Nat) : (s.writeFailed f n).env.waitTurns = s.env.waitTurns :=
  rfl
@[simp] theorem writeFailed_env_ops (f : List Byte) (n : Nat) : (s.writeFailed f n).env.ops = s.env.ops := rfl
@[simp] theorem writeFailed_env_trace (f : List Byte) (n : Nat) : (s.writeFailed f n).env.trace = s.env.trace ++ [.sendFailed f] :=
  rfl
@[simp] theorem writeFailed_env_replies (f : List Byte) (n : Nat) : (s.writeFailed f n).env.replies = s.env.replies :=
  rfl

/-! ### `beginTurn` -/

@[simp] theorem beginTurn_cfg (turn : WaitTurn) (rest : List WaitTurn) : (beginTurn turn rest s).cfg = s.cfg := rfl
@[simp] theorem beginTurn_parser (turn : WaitTurn) (rest : List WaitTurn) : (beginTurn turn rest s).parser = s.parser :=
  rfl
@[simp] theorem beginTurn_status (turn : WaitTurn) (rest : List WaitTurn) : (beginTurn turn rest s).status = s.status :=
  rfl
@[simp] theorem beginTurn_env_transport (turn : WaitTurn) (rest : List WaitTurn) : (beginTurn turn rest s).env.transport = s.env.transport :=
  rfl
@[simp] theorem beginTurn_env_rx (turn : WaitTurn) (rest : List WaitTurn) : (beginTurn turn rest s).env.rx = s.env.rx ++ turn.arrivals :=
  rfl
@[simp] theorem beginTurn_env_tx (turn : WaitTurn) (rest : List WaitTurn) : (beginTurn turn rest s).env.tx = s.env.tx :=
  rfl
@[simp] theorem beginTurn_env_writeAnswers (turn : WaitTurn) (rest : List WaitTurn) : (beginTurn turn rest s).env.writeAnswers = s.env.writeAnswers :=
  rfl
@[simp] theorem beginTurn_env_waitTurns (turn : WaitTurn) (rest : List WaitTurn) : (beginTurn turn rest s).env.waitTurns = rest :=
  rfl
@[simp] theorem beginTurn_env_ops (turn : WaitTurn) (rest : List WaitTurn) : (beginTurn turn rest s).env.ops = s.env.ops :=
  rfl
@[simp] theorem beginTurn_env_trace (turn : WaitTurn) (rest : List WaitTurn) : (beginTurn turn rest s).env.trace = s.env.trace :=
  rfl
@[simp] theorem beginTurn_env_replies (turn : WaitTurn) (rest : List WaitTurn) : (beginTurn turn rest s).env.replies = s.env.replies :=
  rfl

/-! ### `lateArrivals` -/

@[simp] theorem lateArrivals_cfg (turn : WaitTurn) : (lateArrivals turn s).cfg = s.cfg := rfl
@[simp] theorem lateArrivals_parser (turn : WaitTurn) : (lateArrivals turn s).parser = s.parser := rfl
@[simp] theorem lateArrivals_status (turn : WaitTurn) : (lateArrivals turn s).status = s.status := rfl
@[simp] theorem lateArrivals_env_transport (turn : WaitTurn) : (lateArrivals turn s).env.transport = s.env.transport :=
  rfl
@[simp] theorem lateArrivals_env_rx (turn : WaitTurn) : (lateArrivals turn s).env.rx = s.env.rx ++ turn.late := rfl
@[simp] theorem lateArrivals_env_tx (turn : WaitTurn) : (lateArrivals turn s).env.tx = s.env.tx := rfl
@[simp] theorem lateArrivals_env_writeAnswers (turn : WaitTurn) : (lateArrivals turn s).env.writeAnswers = s.env.writeAnswers :=
  rfl
@[simp] theorem lateArrivals_env_waitTurns (turn : WaitTurn) : (lateArrivals turn s).env.waitTurns = s.env.waitTurns :=
  rfl
@[simp] theorem lateArrivals_env_ops (turn : WaitTurn) : (lateArrivals turn s).env.ops = s.env.ops := rfl
@[simp] theorem lateArrivals_env_trace (turn : WaitTurn) : (lateArrivals turn s).env.trace = s.env.trace := rfl
@[simp] theorem lateArrivals_env_replies (turn : WaitTurn) : (lateArrivals turn s).env.replies = s.env.replies := rfl

/-! ### `finishQuery` -/

@[simp] theorem finishQuery_cfg (k : QueryKind) (r : QueryResult) : (finishQuery k r s).cfg = s.cfg := rfl
@[simp] theorem finishQuery_parser (k : QueryKind) (r : QueryResult) : (finishQuery k r s).parser = s.parser := rfl
@[simp] theorem finishQuery_status (k : QueryKind) (r : QueryResult) : (finishQuery k r s).status = s.status := rfl
@[simp] theorem finishQuery_env_transport (k : QueryKind) (r : QueryResult) : (finishQuery k r s).env.transport = s.env.transport :=
  rfl
@[simp] theorem finishQuery_env_rx (k : QueryKind) (r : QueryResult) : (finishQuery k r s).env.rx = s.env.rx := rfl
@[simp] theorem finishQuery_env_tx (k : QueryKind) (r : QueryResult) : (finishQuery k r s).env.tx = s.env.tx := rfl
@[simp] theorem finishQuery_env_writeAnswers (k : QueryKind) (r : QueryResult) : (finishQuery k r s).env.writeAnswers = s.env.writeAnswers :=
  rfl
@[simp] theorem finishQuery_env_waitTurns (k : QueryKind) (r : QueryResult) : (finishQuery k r s).env.waitTurns = s.env.waitTurns :=
  rfl
@[simp] theorem finishQuery_env_ops (k : QueryKind) (r : QueryResult) : (finishQuery k r s).env.ops = s.env.ops := rfl
@[simp] theorem finishQuery_env_trace (k : QueryKind) (r : QueryResult) : (finishQuery k r s).env.trace = s.env.trace ++ [.queryDone k r] :=
  rfl
@[simp] theorem finishQuery_env_replies (k : QueryKind) (r : QueryResult) : (finishQuery k r s).env.replies = s.env.replies ++ [.query k r] :=
  rfl

/-! ### `Parser.resynced` -/

@[simp] theorem resynced_st (p : Parser) : p.resynced.st = .awaitSom1 := rfl
@[simp] theorem resynced_off (p : Parser) : p.resynced.off = 0 := rfl
@[simp] theorem resynced_len (p : Parser) : p.resynced.len = 0 := rfl
@[simp] theorem resynced_buf (p : Parser) : p.resynced.buf = p.buf := rfl
@[simp] theorem resynced_frameReady (p : Parser) : p.resynced.frameReady = false := rfl

end Sys2Proof.Machine
end

