-- ==== Sys2Proof/Laws/Codec.lean ====
section
/-! SUPPORT. What the narrowing, byte-order and frame functions give, each said once. -/

namespace Sys2Proof

theorem u8_toNat (v : Int) : ((u8 v).toNat : Int) = v % 256 := by
  rw [u8, BitVec.toNat_ofInt]; omega

theorem u16_toNat (v : Int) : ((u16 v).toNat : Int) = v % 65536 := by
  rw [u16, BitVec.toNat_ofInt]; omega

theorem u8_natCast (b : Byte) : u8 (b.toNat : Int) = b :=
  BitVec.eq_of_toNat_eq (by have := u8_toNat b.toNat; have := b.isLt; omega)

theorem u16_natCast (w : Half) : u16 (w.toNat : Int) = w :=
  BitVec.eq_of_toNat_eq (by have := u16_toNat w.toNat; have := w.isLt; omega)

theorem lo8_toNat (w : Half) : (lo8 w).toNat = w.toNat % 256 := by simp [lo8]

theorem hi8_toNat (w : Half) : (hi8 w).toNat = w.toNat / 256 := by
  have := w.isLt
  simp [hi8, Nat.shiftRight_eq_div_pow]; omega

theorem le16_toNat (a b : Byte) : (le16 a b).toNat = a.toNat + 256 * b.toNat := by
  have ha := a.isLt
  have hb := b.isLt
  have hs : (b.toNat <<< 8) % 65536 = b.toNat <<< 8 := Nat.mod_eq_of_lt (by rw [Nat.shiftLeft_eq]; omega)
  simp only [le16, BitVec.toNat_or, BitVec.toNat_shiftLeft, BitVec.toNat_setWidth]
  rw [Nat.mod_eq_of_lt (by omega : a.toNat < 2 ^ 16), Nat.mod_eq_of_lt (by omega : b.toNat < 2 ^ 16), hs,
    Nat.or_comm, ← Nat.shiftLeft_add_eq_or_of_lt ha, Nat.shiftLeft_eq]
  omega

theorem le16_lo8_hi8_toNat (w : Half) : (le16 (lo8 w) (hi8 w)).toNat = w.toNat := by
  rw [le16_toNat, lo8_toNat, hi8_toNat]; omega

@[simp] theorem readBool8_byte (b : Byte) : (readBool8 b).byte = b := by
  unfold readBool8
  split
  · simp_all [Bool8.byte]
  · split
    · simp_all [Bool8.byte]
    · exact u8_natCast b

@[simp] theorem p8_readU8 (b : Byte) : p8 (readU8 b) = [b] := by simp [p8, readU8, u8_natCast]

@[simp] theorem p16_readU16 (b0 b1 : Byte) : p16 (readU16 b0 b1) = [b0, b1] := by
  have hb := b0.isLt
  have h0 : lo8 (le16 b0 b1) = b0 := BitVec.eq_of_toNat_eq (by rw [lo8_toNat, le16_toNat]; omega)
  have h1 : hi8 (le16 b0 b1) = b1 := BitVec.eq_of_toNat_eq (by rw [hi8_toNat, le16_toNat]; omega)
  simp [p16, readU16, u16_natCast, h0, h1]

@[simp] theorem pBool_readBool8 (b : Byte) : pBool (readBool8 b) = [b] := by simp [pBool]

@[simp] theorem length_p8 (v : Int) : (p8 v).length = 1 := rfl
@[simp] theorem length_p16 (v : Int) : (p16 v).length = 2 := rfl
@[simp] theorem length_pBool (v : Bool8) : (pBool v).length = 1 := rfl

@[simp] theorem frame_length (c : Cfg) (op : Byte) (p : List Byte) : (frame c op p).length = 5 + p.length := by
  simp [frame]; omega

theorem encodeFrame_fits {c : Cfg} {p : List Byte} (op : Byte) (h : 5 + p.length ≤ c.maxLen) :
    encodeFrame c op p = some (frame c op p) := by
  simp [encodeFrame, Nat.not_lt.mpr h]

theorem encodeFrame_tooLong {c : Cfg} {p : List Byte} (op : Byte) (h : c.maxLen < 5 + p.length) :
    encodeFrame c op p = none := by
  simp [encodeFrame, h]

/-- The payload of a command has the length of its layout, at most 7 bytes (R65, R66). -/
theorem payloadOf_command_length {i : Instr} (h : i.direction = .command) : (payloadOf i).length ≤ 7 := by
  cases i <;> simp_all [payloadOf, Instr.direction]

/-- Whole entries only, two bytes each (R110). -/
theorem le16List_length (p : List Byte) : (le16List p).length = p.length / 2 := by
  induction p using le16List.induct with
  | case1 b0 b1 rest ih => simp [le16List, ih]; omega
  | case2 b => simp [le16List]
  | case3 => simp [le16List]

end Sys2Proof
end

