-- ==== Sys2Proof/Laws/Ops.lean ====
section
/-! SUPPORT. One spec lemma for each shared operation: sequencing, sending, the responses' common effect. -/

namespace Sys2Proof.Machine

/-! ### Sequencing -/

@[simp] theorem andThen_next (s : State) (f : State → Host.Outcome State Fault Refusal) :
    andThen (.next s) f = f s := rfl
@[simp] theorem andThen_fault (r : Fault) (f : State → Host.Outcome State Fault Refusal) :
    andThen (.fault r) f = .fault r := rfl
@[simp] theorem andThen_refused (r : Refusal) (f : State → Host.Outcome State Fault Refusal) :
    andThen (.refused r) f = .refused r := rfl

theorem andThen_assoc (o : Host.Outcome State Fault Refusal) (f g : State → Host.Outcome State Fault Refusal) :
    andThen (andThen o f) g = andThen o fun s => andThen (f s) g := by
  cases o <;> rfl

theorem andThen_eq_next {o : Host.Outcome State Fault Refusal} {f : State → Host.Outcome State Fault Refusal}
    {t : State} : andThen o f = .next t ↔ ∃ s, o = .next s ∧ f s = .next t := by
  cases o <;> simp [andThen]

/-! ### Sending -/

/-- All that `SendFrame` can do: refuse a frame that is too long, write it whole, or fail with part of it written. -/
theorem sendFrame_cases (op : Byte) (p : List Byte) (s : State) :
    (s.cfg.maxLen < 5 + p.length ∧ sendFrame op p s = (.encodeTooLong, s)) ∨
    (5 + p.length ≤ s.cfg.maxLen ∧ s.env.nextWrite = .ok ∧
      sendFrame op p s = (.ok, s.wrote (frame s.cfg op p))) ∨
    (5 + p.length ≤ s.cfg.maxLen ∧ ∃ n, s.env.nextWrite = .fail n ∧
      sendFrame op p s = (.transportFailure, s.writeFailed (frame s.cfg op p) n)) := by
  rcases Nat.lt_or_ge s.cfg.maxLen (5 + p.length) with h | h
  · exact .inl ⟨h, by simp [sendFrame, encodeFrame_tooLong op h]⟩
  · cases hw : s.env.nextWrite with
    | ok => exact .inr (.inl ⟨h, rfl, by simp [sendFrame, encodeFrame_fits op h, hw]⟩)
    | fail n => exact .inr (.inr ⟨h, n, rfl, by simp [sendFrame, encodeFrame_fits op h, hw]⟩)

/-- A frame that fits and an accepted write. -/
theorem sendFrame_ok {op : Byte} {p : List Byte} {s : State} (h : 5 + p.length ≤ s.cfg.maxLen)
    (hw : s.env.nextWrite = .ok) : sendFrame op p s = (.ok, s.wrote (frame s.cfg op p)) := by
  simp [sendFrame, encodeFrame_fits op h, hw]

/-- A frame that fits and a failed write. -/
theorem sendFrame_fail {op : Byte} {p : List Byte} {s : State} {n : Nat} (h : 5 + p.length ≤ s.cfg.maxLen)
    (hw : s.env.nextWrite = .fail n) :
    sendFrame op p s = (.transportFailure, s.writeFailed (frame s.cfg op p) n) := by
  simp [sendFrame, encodeFrame_fits op h, hw]

/-- Sending writes no block register and nothing the transport holds inbound. -/
theorem sendFrame_frame (op : Byte) (p : List Byte) (s : State) :
    SameBlock s (sendFrame op p s).2 ∧ (sendFrame op p s).2.env.rx = s.env.rx ∧
    (sendFrame op p s).2.env.ops = s.env.ops ∧ (sendFrame op p s).2.env.transport = s.env.transport ∧
    (sendFrame op p s).2.env.waitTurns = s.env.waitTurns ∧ (sendFrame op p s).2.env.replies = s.env.replies := by
  rcases sendFrame_cases op p s with ⟨_, e⟩ | ⟨_, _, e⟩ | ⟨_, _, _, e⟩ <;> rw [e] <;> simp [SameBlock]

/-- A list of frames sent one after another writes no block register. -/
theorem sendAll_frame (fs : List (Byte × List Byte)) (s : State) :
    SameBlock s (sendAll fs s).2 ∧ (sendAll fs s).2.env.rx = s.env.rx ∧
    (sendAll fs s).2.env.ops = s.env.ops ∧ (sendAll fs s).2.env.transport = s.env.transport ∧
    (sendAll fs s).2.env.waitTurns = s.env.waitTurns ∧ (sendAll fs s).2.env.replies = s.env.replies := by
  induction fs generalizing s with
  | nil => simp [sendAll, SameBlock]
  | cons f rest ih =>
    obtain ⟨op, p⟩ := f
    have hf := sendFrame_frame op p s
    unfold sendAll
    split
    · rename_i t e
      rw [e] at hf
      have := ih t
      simp_all [SameBlock]
    · rename_i r t e
      rw [e] at hf
      exact hf

/-- Every command is `SendFrame` of its opcode and payload (R115). -/
theorem exec_command {i : Instr} (h : i.direction = .command) (s : State) :
    exec i s = sendCommand (opcodeOf s.cfg i) (payloadOf i) s := by
  cases i <;> first | rfl | cases h

/-! ### Responses -/

/-- All that a response can do: a new status model and events at the end of the trace; it always goes on. -/
theorem exec_response {i : Instr} (h : i.direction = .response) (s : State) :
    ∃ st evs, exec i s = .next (appliedState s st evs) := by
  cases i with
  | rspVersionString p => exact ⟨_, [_], rfl⟩
  | rspSystemInfo p =>
    match p with
    | _ :: _ :: _ :: _ => exact ⟨_, [_], rfl⟩
    | [_, _] => exact ⟨_, [_], rfl⟩
    | [_] => exact ⟨_, [_], rfl⟩
    | [] => exact ⟨_, [_], rfl⟩
  | rspStatus p =>
    by_cases hp : p.length % 2 = 1
    · exact ⟨_, [_, _], by
        simp only [exec, execRspStatus, flagOddStatus, if_pos hp, appliedState, flagLength, State.record,
          State.setStatus, List.append_assoc]
        rfl⟩
    · exact ⟨_, [_], by
        simp only [exec, execRspStatus, flagOddStatus, if_neg hp, appliedState, State.record, State.setStatus]
        rfl⟩
  | rspTrackReport p =>
    match p with
    | t0 :: t1 :: v :: x :: rest =>
      by_cases hv : v.toNat ≥ s.cfg.numVoices
      · exact ⟨s.status, [.dispatched s.cfg.opRspTrackReport (t0 :: t1 :: v :: x :: rest)], by
          simp only [exec, execRspTrackReport, if_pos hv]; rfl⟩
      · exact ⟨{ s.status with voice := updateVoice s.status.voice v.toNat (exposedTrack t0 t1) x },
          [.dispatched s.cfg.opRspTrackReport (t0 :: t1 :: v :: x :: rest)], by
          simp only [exec, execRspTrackReport, if_neg hv]; rfl⟩
    | [_, _, _] => exact ⟨_, [_], rfl⟩
    | [_, _] => exact ⟨_, [_], rfl⟩
    | [_] => exact ⟨_, [_], rfl⟩
    | [] => exact ⟨_, [_], rfl⟩
  | _ => cases h

/-- A response's effect is a function of the configuration and the status model alone: two states that agree on these get
the same new status model and the same events. -/
theorem exec_response_uniform {i : Instr} (h : i.direction = .response) (s s' : State) (hc : s'.cfg = s.cfg)
    (hs : s'.status = s.status) :
    ∃ st evs, exec i s = .next (appliedState s st evs) ∧
      exec i s' = .next (appliedState s' st evs) := by
  cases i with
  | rspVersionString p => exact ⟨_, [_], rfl, by rw [← hc, ← hs]; rfl⟩
  | rspSystemInfo p =>
    match p with
    | _ :: _ :: _ :: _ => exact ⟨_, [_], rfl, by rw [← hc, ← hs]; rfl⟩
    | [_, _] => exact ⟨_, [_], rfl, by rw [← hc, ← hs]; rfl⟩
    | [_] => exact ⟨_, [_], rfl, by rw [← hc, ← hs]; rfl⟩
    | [] => exact ⟨_, [_], rfl, by rw [← hc, ← hs]; rfl⟩
  | rspStatus p =>
    by_cases hp : p.length % 2 = 1
    · exact ⟨_, [_, _], by
        simp only [exec, execRspStatus, flagOddStatus, if_pos hp, appliedState, flagLength, State.record,
          State.setStatus, List.append_assoc]
        rfl, by
        simp only [exec, execRspStatus, flagOddStatus, if_pos hp, appliedState, flagLength, State.record,
          State.setStatus, List.append_assoc]
        rw [← hc, ← hs]
        rfl⟩
    · exact ⟨_, [_], by
        simp only [exec, execRspStatus, flagOddStatus, if_neg hp, appliedState, State.record, State.setStatus]
        rfl, by
        simp only [exec, execRspStatus, flagOddStatus, if_neg hp, appliedState, State.record, State.setStatus]
        rw [← hc, ← hs]⟩
  | rspTrackReport p =>
    match p with
    | t0 :: t1 :: v :: x :: rest =>
      by_cases hv : v.toNat ≥ s.cfg.numVoices
      · exact ⟨s.status, [.dispatched s.cfg.opRspTrackReport (t0 :: t1 :: v :: x :: rest)], by
          simp only [exec, execRspTrackReport, if_pos hv]; rfl, by
          simp only [exec, execRspTrackReport, hc, if_pos hv, ← hs]; rw [← hc]; rfl⟩
      · exact ⟨{ s.status with voice := updateVoice s.status.voice v.toNat (exposedTrack t0 t1) x },
          [.dispatched s.cfg.opRspTrackReport (t0 :: t1 :: v :: x :: rest)], by
          simp only [exec, execRspTrackReport, if_neg hv]; rfl, by
          simp only [exec, execRspTrackReport, hc, if_neg hv, ← hs]; rw [← hc]; rfl⟩
    | [_, _, _] => exact ⟨_, [_], rfl, by rw [← hc, ← hs]; rfl⟩
    | [_, _] => exact ⟨_, [_], rfl, by rw [← hc, ← hs]; rfl⟩
    | [_] => exact ⟨_, [_], rfl, by rw [← hc, ← hs]; rfl⟩
    | [] => exact ⟨_, [_], rfl, by rw [← hc, ← hs]; rfl⟩
  | _ => cases h

@[simp] theorem updateVoice_length (table : List (Option TrackNo)) (v : Nat) (t : TrackNo) (x : Byte) :
    (updateVoice table v t x).length = table.length := by
  unfold updateVoice
  split
  · split <;> simp
  · simp

/-- The 1-based track is exact in 17 bits (R108). -/
theorem exposedTrack_toNat (t0 t1 : Byte) : (exposedTrack t0 t1).toNat = (le16 t0 t1).toNat + 1 := by
  have := (le16 t0 t1).isLt
  simp [exposedTrack]; omega

end Sys2Proof.Machine
end

