-- ==== Sys2Proof/Laws/StreamParser.lean ====
section
/-! SUPPORT. The parser's invariant by state, and the inversion lemmas of `Dispatch`, `RxStep` and `Poll`. -/

namespace Sys2Proof.Machine

/-! ### The invariant R26, one equation per parser state -/

theorem ok_awaitSom1 {c : Cfg} {p : Parser} (h : p.st = .awaitSom1) :
    p.ok c = true ↔ p.frameReady = false ∧ p.buf.length = c.rxbufCap ∧ p.off.toNat = 0 ∧ p.len.toNat = 0 := by
  simp [Parser.ok, h, and_assoc]

theorem ok_awaitSom2 {c : Cfg} {p : Parser} (h : p.st = .awaitSom2) :
    p.ok c = true ↔ p.frameReady = false ∧ p.buf.length = c.rxbufCap ∧ p.off.toNat = 1 ∧ p.len.toNat = 0 := by
  simp [Parser.ok, h, and_assoc]

theorem ok_awaitLen {c : Cfg} {p : Parser} (h : p.st = .awaitLen) :
    p.ok c = true ↔ p.frameReady = false ∧ p.buf.length = c.rxbufCap ∧ p.off.toNat = 2 ∧ p.len.toNat = 0 := by
  simp [Parser.ok, h, and_assoc]

theorem ok_accumulating {c : Cfg} {p : Parser} (h : p.st = .accumulatingPayload) :
    p.ok c = true ↔ p.frameReady = false ∧ p.buf.length = c.rxbufCap ∧ minLen ≤ p.len.toNat ∧
      p.len.toNat ≤ c.maxLen ∧ 3 ≤ p.off.toNat ∧ p.off.toNat ≤ p.len.toNat - 2 := by
  simp [Parser.ok, h, and_assoc]

theorem ok_awaitEom {c : Cfg} {p : Parser} (h : p.st = .awaitEom) :
    p.ok c = true ↔ p.frameReady = false ∧ p.buf.length = c.rxbufCap ∧ minLen ≤ p.len.toNat ∧
      p.len.toNat ≤ c.maxLen ∧ p.off.toNat = p.len.toNat - 1 := by
  simp [Parser.ok, h, and_assoc]

/-- The buffer has its size and `frame_ready` reads 0 in every parser state of R26. -/
theorem ok_buf {c : Cfg} {p : Parser} (h : p.ok c = true) : p.frameReady = false ∧ p.buf.length = c.rxbufCap := by
  simp only [Parser.ok, Bool.and_eq_true, decide_eq_true_eq, Bool.not_eq_true'] at h
  exact h.1

/-- Resynchronization leaves the parser at rest (R97). -/
theorem ok_resynced {c : Cfg} {p : Parser} (h : p.buf.length = c.rxbufCap) : p.resynced.ok c = true := by
  rw [ok_awaitSom1 rfl]; simp [h]

/-- In `AwaitEom` the buffer holds the opcode and the payload. -/
theorem body_awaitEom {c : Cfg} {p : Parser} (h : p.ok c = true) (he : p.st = .awaitEom) :
    p.body.length = p.len.toNat - 4 ∧ ∃ op q, p.body = op :: q := by
  obtain ⟨_, hb, h5, hm, _⟩ := (ok_awaitEom he).mp h
  have hl : p.body.length = p.len.toNat - 4 := by
    simp only [Parser.body, List.length_take, hb, Cfg.rxbufCap]; omega
  refine ⟨hl, ?_⟩
  cases hq : p.body with
  | nil => rw [hq] at hl; simp [minLen] at hl h5; omega
  | cons op q => exact ⟨op, q, rfl⟩

/-! ### Dispatch -/

/-- All that `Dispatch` can do: a new status model and events at the end of the trace (R114). -/
theorem dispatch_applied (op : Byte) (p : List Byte) (s : State) :
    ∃ st evs, dispatch op p s = .next (appliedState s st evs) := by
  unfold dispatch
  split
  · rename_i i hi
    refine exec_response ?_ s
    unfold decodeResponse at hi
    split at hi
    · cases hi; rfl
    · split at hi
      · cases hi; rfl
      · split at hi
        · cases hi; rfl
        · split at hi
          · cases hi; rfl
          · cases hi
  · exact ⟨s.status, [_], rfl⟩

/-- `Dispatch` is a function of the configuration and the status model alone (R114). -/
theorem dispatch_uniform (op : Byte) (p : List Byte) (s s' : State) (hc : s'.cfg = s.cfg)
    (hs : s'.status = s.status) :
    ∃ st evs, dispatch op p s = .next (appliedState s st evs) ∧
      dispatch op p s' = .next (appliedState s' st evs) := by
  unfold dispatch
  rw [hc]
  split
  · rename_i i hi
    refine exec_response_uniform ?_ s s' hc hs
    unfold decodeResponse at hi
    split at hi
    · cases hi; rfl
    · split at hi
      · cases hi; rfl
      · split at hi
        · cases hi; rfl
        · split at hi
          · cases hi; rfl
          · cases hi
  · exact ⟨s.status, [_], rfl, by rw [← hs]; rfl⟩

/-! ### RxStep -/

/-- All that an `RxStep` can do (R90): every transition with its guard and its next state, or the stop outside R26. -/
theorem rxStep_cases (b : Byte) (s : State) :
    (s.parser.ok s.cfg = false ∧ rxStep b s = .fault .parserOutsideInvariant) ∨
    (s.parser.ok s.cfg = true ∧
      ((s.parser.st = .awaitSom1 ∧ b = s.cfg.som1 ∧
          rxStep b s = .next (s.setParser { s.parser with st := .awaitSom2, off := 1 })) ∨
       (s.parser.st = .awaitSom1 ∧ b ≠ s.cfg.som1 ∧ rxStep b s = .next s) ∨
       (s.parser.st = .awaitSom2 ∧ b = s.cfg.som2 ∧
          rxStep b s = .next (s.setParser { s.parser with st := .awaitLen, off := 2 })) ∨
       (s.parser.st = .awaitSom2 ∧ b ≠ s.cfg.som2 ∧ rxStep b s = .next (raiseMalformed .badSom2 s)) ∨
       (s.parser.st = .awaitLen ∧ (minLen ≤ b.toNat ∧ b.toNat ≤ s.cfg.maxLen) ∧
          rxStep b s = .next (s.setParser { s.parser with len := b, off := 3, st := .accumulatingPayload })) ∨
       (s.parser.st = .awaitLen ∧ ¬(minLen ≤ b.toNat ∧ b.toNat ≤ s.cfg.maxLen) ∧
          rxStep b s = .next (raiseMalformed .badLen s)) ∨
       (s.parser.st = .accumulatingPayload ∧ rxStep b s = .next (stepAccum b s)) ∨
       (s.parser.st = .awaitEom ∧ b = s.cfg.eom ∧ ∃ op p st evs, s.parser.body = op :: p ∧
          dispatch op p (markReady s) = .next (appliedState (markReady s) st evs) ∧
          rxStep b s = .next (resync (appliedState (markReady s) st evs))) ∨
       (s.parser.st = .awaitEom ∧ b ≠ s.cfg.eom ∧ rxStep b s = .next (raiseMalformed .badEom s)))) := by
  cases hok : s.parser.ok s.cfg with
  | false => exact .inl ⟨rfl, by simp [rxStep, hok]⟩
  | true =>
    refine .inr ⟨rfl, ?_⟩
    cases hst : s.parser.st with
    | awaitSom1 =>
      by_cases hb : b = s.cfg.som1 <;> simp [rxStep, hok, hst, stepSom1, hb]
    | awaitSom2 =>
      by_cases hb : b = s.cfg.som2 <;> simp [rxStep, hok, hst, stepSom2, hb]
    | awaitLen =>
      by_cases hb : minLen ≤ b.toNat ∧ b.toNat ≤ s.cfg.maxLen <;> simp only [rxStep, hok, hst, stepLen, hb] <;> simp
    | accumulatingPayload => simp [rxStep, hok, hst]
    | awaitEom =>
      by_cases hb : b = s.cfg.eom
      · obtain ⟨_, op, p, hbody⟩ := body_awaitEom hok hst
        obtain ⟨st, evs, hd⟩ := dispatch_applied op p (markReady s)
        have e : rxStep b s = .next (resync (appliedState (markReady s) st evs)) := by
          simp [rxStep, hok, hst, stepEom, hb, hbody, hd]
        exact .inr (.inr (.inr (.inr (.inr (.inr (.inr (.inl ⟨rfl, hb, op, p, st, evs, hbody, hd, e⟩)))))))
      · simp [rxStep, hok, hst, stepEom, hb]

/-! ### Poll -/

@[simp] theorem pollBytes_nil (s : State) : pollBytes [] s = .next s := rfl
@[simp] theorem pollBytes_cons (b : Byte) (bs : List Byte) (s : State) :
    pollBytes (b :: bs) s = andThen (rxStep b s) (pollBytes bs) := rfl

/-- Two polls in a row are one poll of both chunks (R101). -/
theorem pollBytes_append (xs ys : List Byte) (s : State) :
    pollBytes (xs ++ ys) s = andThen (pollBytes xs s) (pollBytes ys) := by
  induction xs generalizing s with
  | nil => rfl
  | cons x xs ih =>
    simp only [List.cons_append, pollBytes_cons, andThen_assoc]
    exact congrArg (andThen (rxStep x s)) (funext fun t => ih t)

/-- What one `RxStep` never touches (R36): the configuration, and of the environment all but the trace, which grows. -/
theorem rxStep_frame {b : Byte} {s t : State} (h : rxStep b s = .next t) :
    t.cfg = s.cfg ∧ ∃ evs, t.env = { s.env with trace := s.env.trace ++ evs } := by
  have nil : s.env = { s.env with trace := s.env.trace ++ [] } := by simp
  rcases rxStep_cases b s with ⟨_, e⟩ | ⟨_, h'⟩
  · rw [e] at h; cases h
  · rcases h' with ⟨_, _, e⟩ | ⟨_, _, e⟩ | ⟨_, _, e⟩ | ⟨_, _, e⟩ | ⟨_, _, e⟩ | ⟨_, _, e⟩ | ⟨_, e⟩ |
      ⟨_, _, _, _, _, evs, _, _, e⟩ | ⟨_, _, e⟩ <;> rw [e] at h <;> cases h
    · exact ⟨rfl, [], nil⟩
    · exact ⟨rfl, [], nil⟩
    · exact ⟨rfl, [], nil⟩
    · exact ⟨rfl, _, rfl⟩
    · exact ⟨rfl, [], nil⟩
    · exact ⟨rfl, _, rfl⟩
    · exact ⟨rfl, [], nil⟩
    · exact ⟨rfl, evs, rfl⟩
    · exact ⟨rfl, _, rfl⟩

/-- What a poll never touches (R36): the configuration, and of the environment all but the trace, which grows. -/
theorem pollBytes_frame (bs : List Byte) : ∀ {s t : State}, pollBytes bs s = .next t →
    t.cfg = s.cfg ∧ ∃ evs, t.env = { s.env with trace := s.env.trace ++ evs } := by
  induction bs with
  | nil => intro s t h; cases h; exact ⟨rfl, [], by simp⟩
  | cons b bs ih =>
    intro s t h
    rw [pollBytes_cons, andThen_eq_next] at h
    obtain ⟨u, h1, h2⟩ := h
    obtain ⟨e1, ev1, e2⟩ := rxStep_frame h1
    obtain ⟨e3, ev3, e4⟩ := ih h2
    exact ⟨e3.trans e1, ev1 ++ ev3, by rw [e4, e2]; simp⟩

/-- One `RxStep` is a function of the block alone: with another environment it makes the same transition and records the
same events there (R100). -/
theorem rxStep_uniform {b : Byte} {s t : State} (e : Env) (h : rxStep b s = .next t) :
    ∃ evs, t.env = { s.env with trace := s.env.trace ++ evs } ∧
      rxStep b { s with env := e } = .next { t with env := { e with trace := e.trace ++ evs } } := by
  have nil : ∀ e : Env, { e with trace := e.trace ++ [] } = e := by simp
  unfold rxStep at h ⊢
  split at h
  · rename_i hok
    rw [if_pos hok]
    cases hst : s.parser.st <;> simp only [hst] at h ⊢
    case awaitSom1 =>
      cases h
      refine ⟨[], ?_, ?_⟩ <;> simp only [stepSom1, nil] <;> split <;> simp_all [State.setParser]
    case awaitSom2 =>
      cases h
      by_cases hb : b = s.cfg.som2
      · exact ⟨[], by simp [stepSom2, hb], by simp [stepSom2, hb, State.setParser]⟩
      · exact ⟨[.dropped .badSom2], by simp only [stepSom2, hb]; rfl, by simp only [stepSom2, hb]; rfl⟩
    case awaitLen =>
      cases h
      by_cases hb : minLen ≤ b.toNat ∧ b.toNat ≤ s.cfg.maxLen
      · exact ⟨[], by simp [stepLen, hb], by simp [stepLen, hb, State.setParser]⟩
      · exact ⟨[.dropped .badLen], by simp only [stepLen, hb]; rfl, by simp only [stepLen, hb]; rfl⟩
    case accumulatingPayload =>
      cases h
      exact ⟨[], by simp [stepAccum], by simp [stepAccum, State.setParser]⟩
    case awaitEom =>
      unfold stepEom at h ⊢
      by_cases hb : b = s.cfg.eom
      · simp only [hb] at h ⊢
        cases hq : s.parser.body with
        | nil => simp [hq] at h
        | cons op p =>
          obtain ⟨st, evs, d, d'⟩ := dispatch_uniform op p (markReady s) (markReady { s with env := e }) rfl rfl
          simp only [hq, d, d', if_true, andThen_next] at h ⊢
          cases h
          exact ⟨evs, rfl, rfl⟩
      · simp only [hb, if_false] at h ⊢
        cases h
        exact ⟨[.dropped .badEom], rfl, rfl⟩
  · cases h

/-- The same of a poll: its effect on the block and the events it records do not depend on the environment. -/
theorem pollBytes_uniform (bs : List Byte) : ∀ {s t : State} (e : Env), pollBytes bs s = .next t →
    ∃ evs, t.env = { s.env with trace := s.env.trace ++ evs } ∧
      pollBytes bs { s with env := e } = .next { t with env := { e with trace := e.trace ++ evs } } := by
  induction bs with
  | nil => intro s t e h; cases h; exact ⟨[], by simp, by simp⟩
  | cons b bs ih =>
    intro s t e h
    rw [pollBytes_cons, andThen_eq_next] at h
    obtain ⟨u, h1, h2⟩ := h
    obtain ⟨ev1, e1, r1⟩ := rxStep_uniform e h1
    obtain ⟨ev2, e2, r2⟩ := ih { e with trace := e.trace ++ ev1 } h2
    refine ⟨ev1 ++ ev2, by rw [e2, e1]; simp, ?_⟩
    rw [pollBytes_cons, r1, andThen_next, r2]; simp

/-- From states of one block, the same bytes lead to states of one block. -/
theorem pollBytes_sameBlock {bs : List Byte} {s s' t : State} (hb : SameBlock s s') (h : pollBytes bs s = .next t) :
    ∃ t', pollBytes bs s' = .next t' ∧ SameBlock t t' := by
  obtain ⟨evs, _, r⟩ := pollBytes_uniform bs s'.env h
  have e : { s with env := s'.env } = s' := by rw [← hb.1, ← hb.2.1, ← hb.2.2]
  rw [e] at r
  exact ⟨_, r, rfl, rfl, rfl⟩

/-- The host's poll is a function of the block and of the bytes the transport holds; it takes them all and changes nothing
else of the environment but the trace (R101, R102). -/
theorem pollTransport_congr {s s' t : State} (hb : SameBlock s s') (hr : s'.env.rx = s.env.rx)
    (h : pollTransport s = .next t) :
    ∃ t' evs, pollTransport s' = .next t' ∧ SameBlock t t' ∧
      t.env = { s.env with rx := [], trace := s.env.trace ++ evs } ∧
      t'.env = { s'.env with rx := [], trace := s'.env.trace ++ evs } := by
  obtain ⟨evs, e, r⟩ := pollBytes_uniform _ { s'.env with rx := [] } h
  refine ⟨{ t with env := { s'.env with rx := [], trace := s'.env.trace ++ evs } }, evs, ?_, ⟨rfl, rfl, rfl⟩, e, rfl⟩
  rw [pollTransport, hr, hb.1, hb.2.1, hb.2.2]
  exact r

/-- Bytes fed while a frame accumulates, up to its last body byte, go into the buffer in order and change nothing outside
the parser (R95). -/
theorem pollBytes_accumulate (q : List Byte) : ∀ s : State, s.cfg.maxLen ≤ 255 → s.parser.ok s.cfg = true →
    s.parser.st = .accumulatingPayload → s.parser.off.toNat + q.length ≤ s.parser.len.toNat - 1 →
    ∃ m, pollBytes q s = .next m ∧ (m.cfg = s.cfg ∧ m.status = s.status ∧ m.env = s.env) ∧ m.parser.ok s.cfg = true ∧ m.parser.len = s.parser.len ∧
      m.parser.off.toNat = s.parser.off.toNat + q.length ∧
      m.parser.st = (if s.parser.off.toNat + q.length = s.parser.len.toNat - 1 then .awaitEom else .accumulatingPayload) ∧
      m.parser.buf.take (s.parser.off.toNat - 3 + q.length) = s.parser.buf.take (s.parser.off.toNat - 3) ++ q := by
  induction q with
  | nil =>
    intro s hm hok hst hl
    obtain ⟨_, _, _, _, h5, h6⟩ := (ok_accumulating hst).mp hok
    exact ⟨s, rfl, ⟨rfl, rfl, rfl⟩, hok, rfl, rfl, by rw [hst, if_neg]; simp; simp [minLen] at *; omega, by simp⟩
  | cons b q ih =>
    intro s hm hok hst hl
    obtain ⟨hf, hb, h3, h4, h5, h6⟩ := (ok_accumulating hst).mp hok
    have hlen := s.parser.len.isLt
    simp only [List.length_cons, minLen] at *
    have hr : rxStep b s = .next (stepAccum b s) := by simp [rxStep, hok, hst]
    have ho : (s.parser.off + 1).toNat = s.parser.off.toNat + 1 := by
      rw [BitVec.toNat_add]; simp; omega
    have ho' : (s.parser.off.toNat + 1) % 256 = s.parser.off.toNat + 1 := Nat.mod_eq_of_lt (by omega)
    have hset : (s.parser.buf.set (s.parser.off.toNat - 3) b).take (s.parser.off.toNat + 1 - 3) = s.parser.buf.take (s.parser.off.toNat - 3) ++ [b] := by
      rw [show s.parser.off.toNat + 1 - 3 = (s.parser.off.toNat - 3) + 1 by omega, List.take_add_one, List.take_set_of_le (by omega)]
      simp [List.getElem?_set, hb, Cfg.rxbufCap]; omega
    have hstl : (stepAccum b s).parser.st = if s.parser.off.toNat + 1 = s.parser.len.toNat - 1 then .awaitEom else s.parser.st := by
      show (if (s.parser.off + 1).toNat = _ then _ else _) = _
      rw [ho]
    have hol : (stepAccum b s).parser.off.toNat = s.parser.off.toNat + 1 := ho
    have hll : (stepAccum b s).parser.len = s.parser.len := rfl
    have hfl : (stepAccum b s).parser.frameReady = s.parser.frameReady := rfl
    have hbl : (stepAccum b s).parser.buf.length = s.parser.buf.length := by simp [stepAccum]
    by_cases hlast : s.parser.off.toNat + 1 = s.parser.len.toNat - 1
    · have : q = [] := by cases q with
        | nil => rfl
        | cons => simp at hl; omega
      subst this
      rw [if_pos hlast] at hstl
      refine ⟨stepAccum b s, by simp [hr], ⟨rfl, rfl, rfl⟩, ?_, rfl, hol, ?_, ?_⟩
      · rw [ok_awaitEom hstl]
        exact ⟨hf, hbl.trans hb, h3, h4, hol.trans hlast⟩
      · rw [hstl]; exact (if_pos hlast).symm
      · simp only [stepAccum, setParser_parser, List.length_nil, Nat.zero_add]
        rw [show s.parser.off.toNat - 3 + 1 = s.parser.off.toNat + 1 - 3 by omega, hset]
    · rw [if_neg hlast, hst] at hstl
      have hok' : (stepAccum b s).parser.ok (stepAccum b s).cfg = true := by
        rw [ok_accumulating hstl]
        exact ⟨hf, hbl.trans hb, h3, h4, by omega, by rw [hol, hll]; omega⟩
      obtain ⟨m, hm1, hm2, hm3, hm4, hm5, hm6, hm7⟩ := ih (stepAccum b s) hm hok' hstl (by rw [hol, hll]; omega)
      rw [hol] at hm5 hm6 hm7
      refine ⟨m, by simp [hr, hm1], hm2, hm3, hm4, by omega, ?_, ?_⟩
      · rw [hm6, hll]; congr 1; simp; omega
      · have : (stepAccum b s).parser.buf = s.parser.buf.set (s.parser.off.toNat - 3) b := rfl
        rw [this, hset] at hm7
        rw [show s.parser.off.toNat - 3 + (q.length + 1) = s.parser.off.toNat + 1 - 3 + q.length by omega, hm7]
        simp

end Sys2Proof.Machine
end

