-- ==== Sys2Proof/Laws/Facade.lean ====
section
/-! SUPPORT. What a query's wait can do: one lemma for the loop, and what its request depends on. -/

namespace Sys2Proof.Machine

/-- Sending does not look at the host's queue. -/
theorem sendFrame_popOp (op : Byte) (p : List Byte) (s : State) :
    sendFrame op p s.popOp = ((sendFrame op p s).1, (sendFrame op p s).2.popOp) := by
  have hw : s.popOp.env.nextWrite = s.env.nextWrite := rfl
  rcases sendFrame_cases op p s with ⟨h, e⟩ | ⟨h, w, e⟩ | ⟨h, n, w, e⟩ <;> rw [e]
  · simp [sendFrame, encodeFrame_tooLong op h]
  · exact sendFrame_ok h (hw.trans w)
  · exact sendFrame_fail h (hw.trans w)

/-- All that a query's wait writes of the block: what the bytes it polled write (R36, R134). -/
theorem queryLoop_polled (k : QueryKind) (turns : List WaitTurn) : ∀ {s t : State}, s.env.waitTurns = turns →
    queryLoop k turns s = .next t → ∃ bs m, PolledByWait s t bs ∧ pollBytes bs s = .next m ∧ SameBlock m t := by
  induction turns with
  | nil =>
    intro s t hw h
    rw [queryLoop, andThen_eq_next] at h
    obtain ⟨m, h1, h2⟩ := h
    obtain ⟨evs, e1, h3⟩ := pollBytes_uniform _ s.env h1
    cases h2
    exact ⟨s.env.rx, _, .inr ⟨by simp [e1, hw], by simp [e1], by simp [hw, turnBytes]⟩, h3, rfl, rfl, rfl⟩
  | cons turn rest ih =>
    intro s t hw h
    rw [queryLoop, andThen_eq_next] at h
    obtain ⟨m, h1, h2⟩ := h
    obtain ⟨evs, e1, h3⟩ := pollBytes_uniform _ s.env h1
    have hrx : m.env.rx = [] := by rw [e1]
    have hwt : m.env.waitTurns = rest := by rw [e1]; rfl
    unfold endTurn at h2
    split at h2
    · cases h2
      exact ⟨_, _, .inl ⟨[], turn, by simp [hw, hwt], by simp [hrx], by simp [turnBytes]⟩, h3, rfl, rfl, rfl⟩
    · split at h2
      · cases h2
        exact ⟨_, _, .inl ⟨[], turn, by simp [hw, hwt], by simp [hrx], by simp [turnBytes]⟩, h3, rfl, rfl, rfl⟩
      · obtain ⟨bs, u, hp, hq, hb⟩ := ih (by simp [hwt]) h2
        have hl : SameBlock (lateArrivals turn m) { m with env := { s.env with trace := s.env.trace ++ evs } } :=
          ⟨rfl, rfl, rfl⟩
        obtain ⟨v, h4, h5⟩ := pollBytes_sameBlock hl hq
        refine ⟨s.env.rx ++ turn.arrivals ++ bs, v, ?_, ?_, h5.1 ▸ hb.1, h5.2.1 ▸ hb.2.1, h5.2.2 ▸ hb.2.2⟩
        · rcases hp with ⟨used, last, p1, p2, p3⟩ | ⟨p1, p2, p3⟩
          · refine .inl ⟨turn :: used, last, ?_, p2, ?_⟩
            · simp [hwt] at p1; simp [hw, p1]
            · simp [p3, hrx, turnBytes]
          · exact .inr ⟨p1, p2, by simp [p3, hrx, hw, hwt, turnBytes]⟩
        · rw [pollBytes_append]
          exact (congrArg (andThen · (pollBytes bs)) h3).trans h4

/-- A query's wait is a function of the block, of the bytes the transport holds and of the script: from states that agree on
these and on the values returned it ends in states that agree on these. -/
theorem queryLoop_congr (k : QueryKind) (turns : List WaitTurn) : ∀ {s s' t : State}, SameBlock s s' →
    s'.env.rx = s.env.rx → s'.env.replies = s.env.replies → s'.env.waitTurns = s.env.waitTurns →
    queryLoop k turns s = .next t →
    ∃ t', queryLoop k turns s' = .next t' ∧ SameBlock t t' ∧ t'.env.rx = t.env.rx ∧
      t'.env.replies = t.env.replies ∧ t'.env.waitTurns = t.env.waitTurns ∧ t'.env.tx = s'.env.tx := by
  induction turns with
  | nil =>
    intro s s' t hb hrx hrp hwt h
    rw [queryLoop, andThen_eq_next] at h
    obtain ⟨m, h1, h2⟩ := h
    obtain ⟨m', evs, h3, h4, e, e'⟩ := pollTransport_congr hb hrx h1
    cases h2
    refine ⟨finishQuery k (if m'.status.flag k then queryValue m'.status k else .unavailable) m', ?_, h4, ?_, ?_, ?_, ?_⟩
    · rw [queryLoop, h3, andThen_next]
    · simp [e, e']
    · simp [e, e', hrp, h4.2.2]
    · simp [e, e', hwt]
    · simp [e']
  | cons turn rest ih =>
    intro s s' t hb hrx hrp hwt h
    rw [queryLoop, andThen_eq_next] at h
    obtain ⟨m, h1, h2⟩ := h
    obtain ⟨m', evs, h3, h4, e, e'⟩ :=
      pollTransport_congr (s := beginTurn turn rest s) (s' := beginTurn turn rest s') hb (by simp [hrx]) h1
    have hl : SameBlock (lateArrivals turn m) (lateArrivals turn m') := h4
    rw [queryLoop, h3, andThen_next]
    unfold endTurn at h2 ⊢
    rw [hl.2.2]
    split at h2
    · rename_i hf
      cases h2
      exact ⟨_, if_pos hf, hl, by simp [e, e'], by simp [e, e', hrp], by simp [e, e'], by simp [e']⟩
    · rename_i hf
      rw [if_neg hf]
      split at h2
      · rename_i he
        cases h2
        exact ⟨_, if_pos he, hl, by simp [e, e'], by simp [e, e', hrp], by simp [e, e'], by simp [e']⟩
      · rename_i he
        obtain ⟨t', r1, r2, r3, r4, r5, r6⟩ :=
          ih hl (by simp [e, e']) (by simp [e, e', hrp]) (by simp [e, e']) h2
        exact ⟨t', (if_neg he).trans r1, r2, r3, r4, r5, r6.trans (by simp [e'])⟩

end Sys2Proof.Machine
end

