-- ==== Sys2Proof/Laws/PerInstr.lean ====
section
/-! SUPPORT. Statements made for every instruction, one lemma per constructor. -/

namespace Sys2Proof.Laws

/-- The encoded frame's length is the LEN of the row's layout, within MIN_LEN..MAX_LEN (30_encoding.md R61, R65 to R67). -/
def LengthFits.Statement (i : Instr) : Prop :=
  ∀ c : Cfg, c.wf → i.wf c = true →
    (encode c i).length = 5 + (payloadOf i).length ∧ minLen ≤ (encode c i).length ∧ (encode c i).length ≤ c.maxLen

/-- A frame fits when its payload does. -/
theorem lengthFits_of_payload {c : Cfg} {i : Instr} (h : 5 + (payloadOf i).length ≤ c.maxLen) :
    (encode c i).length = 5 + (payloadOf i).length ∧ minLen ≤ (encode c i).length ∧ (encode c i).length ≤ c.maxLen := by
  simp only [encode, frame_length, minLen]; exact ⟨trivial, by omega, by omega⟩

/-- Every command fits a well-formed configuration (R66). -/
theorem lengthFits_command {i : Instr} (h : i.direction = .command) : LengthFits.Statement i := by
  intro c hc _
  have := payloadOf_command_length h
  have := hc.1
  exact lengthFits_of_payload (by omega)

theorem LengthFits.trackControl (code track : Int) : LengthFits.Statement (.trackControl code track) :=
  lengthFits_command rfl
theorem LengthFits.trackControlEx (code track : Int) (lock : Bool8) :
    LengthFits.Statement (.trackControlEx code track lock) := lengthFits_command rfl
theorem LengthFits.trackVolume (track gain : Int) : LengthFits.Statement (.trackVolume track gain) :=
  lengthFits_command rfl
theorem LengthFits.trackFade (track gain timeMs : Int) (stop : Bool8) :
    LengthFits.Statement (.trackFade track gain timeMs stop) := lengthFits_command rfl
theorem LengthFits.masterVolume (gain : Int) : LengthFits.Statement (.masterVolume gain) := lengthFits_command rfl
theorem LengthFits.samplerateOffset (offset : Int) : LengthFits.Statement (.samplerateOffset offset) :=
  lengthFits_command rfl
theorem LengthFits.stopAll : LengthFits.Statement .stopAll := lengthFits_command rfl
theorem LengthFits.resumeAllSync : LengthFits.Statement .resumeAllSync := lengthFits_command rfl
theorem LengthFits.getVersion : LengthFits.Statement .getVersion := lengthFits_command rfl
theorem LengthFits.getSysInfo : LengthFits.Statement .getSysInfo := lengthFits_command rfl
theorem LengthFits.getStatus : LengthFits.Statement .getStatus := lengthFits_command rfl
theorem LengthFits.ampPower (enable : Bool8) : LengthFits.Statement (.ampPower enable) := lengthFits_command rfl
theorem LengthFits.setReporting (enable : Bool8) : LengthFits.Statement (.setReporting enable) :=
  lengthFits_command rfl
theorem LengthFits.setTriggerBank (bank : Int) : LengthFits.Statement (.setTriggerBank bank) := lengthFits_command rfl

theorem LengthFits.rspVersionString (payload : List Byte) : LengthFits.Statement (.rspVersionString payload) :=
  fun _ _ h => lengthFits_of_payload (of_decide_eq_true h)
theorem LengthFits.rspSystemInfo (payload : List Byte) : LengthFits.Statement (.rspSystemInfo payload) :=
  fun _ _ h => lengthFits_of_payload (of_decide_eq_true h)
theorem LengthFits.rspStatus (payload : List Byte) : LengthFits.Statement (.rspStatus payload) :=
  fun _ _ h => lengthFits_of_payload (of_decide_eq_true h)
theorem LengthFits.rspTrackReport (payload : List Byte) : LengthFits.Statement (.rspTrackReport payload) :=
  fun _ _ h => lengthFits_of_payload (of_decide_eq_true h)

end Sys2Proof.Laws
end

