-- ==== Sys2Proof/Tests/Slice0.lean ====
section
/-! SUPPORT. Tests: the well-formedness smoke, decoding from words written out of the spec, one-step checks against
95_test_vectors.md, and a witness for the hypotheses of each statement. Expected values are the spec's, vector by vector. -/

namespace Sys2Proof.Tests

open Sys2Proof.Machine

/-! ### Helpers -/

/-- The next state of an outcome, if it is one. -/
def nextOf : Host.Outcome State Fault Refusal → Option State
  | .next s => some s
  | .fault _ => none
  | .refused _ => none

theorem eq_next {o : Host.Outcome State Fault Refusal} {s : State} (h : nextOf o = some s) : o = .next s := by
  cases o with
  | next t => exact congrArg _ (Option.some.inj h)
  | fault _ => cases h
  | refused _ => cases h

/-- `S0` of 95_test_vectors.md, the transport open and accepting every write. -/
def s0 : State := { State.reset with env := { Env.initial with transport := some { baudRate := 0, lineConfig := 0 } } }

/-- `s0` with a transport whose next writes are answered by `as`. -/
def answering (as : List WriteAnswer) : State := { s0 with env := { s0.env with writeAnswers := as } }

/-- `s0` with operations at the head of the host's queue and inbound bytes in the transport. -/
def queued (ops : List HostOp) (rx : List Byte) : State := { s0 with env := { s0.env with ops := ops, rx := rx } }

/-- `s0` with the parser registers given, the buffer starting with `front`. -/
def parsing (st : ParserState) (off len : BitVec 8) (front : List Byte) : State :=
  { s0 with parser := { st := st, off := off, len := len, buf := front ++ List.replicate (28 - front.length) 0,
                        frameReady := false } }

/-- `s0` with a status model. -/
def holding (t : Status) : State := { s0 with status := t }

/-- A status model with voice 2 on track `t`, every received flag set and `len_err` set. -/
def busy (t : TrackNo) : Status :=
  { voice := (List.replicate 14 none).set 2 (some t), version := [0x57, 0x00, 0x31], versionRcvd := true,
    numVoices := 8, numTracks := 100, sysinfoRcvd := true, playing := [5, 6], statusRcvd := true, lenErr := true }

/-- What a command puts on the wire from `s0`. -/
def txOf (i : Instr) : Option (List Byte) := (nextOf (exec i s0)).map (·.env.tx)

/-- The status model and the trace after polling bytes from `s0`. -/
def polled (bs : List Byte) : Option (Status × List Event) :=
  (nextOf (pollBytes bs s0)).map fun t => (t.status, t.env.trace)

/-- The parser after polling bytes from `s0`. -/
def parserAfter (bs : List Byte) : Option (ParserState × BitVec 8 × BitVec 8) :=
  (nextOf (pollBytes bs s0)).map fun t => (t.parser.st, t.parser.off, t.parser.len)

abbrev st0 : Status := Status.reset Cfg.default

/-- The sys-info frame of L1.2, and the track report `G` of section 2.4. -/
def sysInfoFrame : List Byte := [0xF0, 0xAA, 0x08, 0x82, 0x08, 0x64, 0x00, 0x55]
def reportFrame : List Byte := [0xF0, 0xAA, 0x09, 0x84, 0x04, 0x00, 0x02, 0x01, 0x55]
def voice2on5 : List (Option TrackNo) := (List.replicate 14 none).set 2 (some 5)

/-! ### WellFormed: an ill-formed term for each check, refused -/

theorem test_wf_u8_low : (Instr.trackControl (-1) 7).wf Cfg.default = false := by decide
theorem test_wf_u8_high : (Instr.setTriggerBank 256).wf Cfg.default = false := by decide
theorem test_wf_u16_low : (Instr.masterVolume (-6)).wf Cfg.default = false := by decide
theorem test_wf_u16_high : (Instr.trackControl 0 65536).wf Cfg.default = false := by decide
theorem test_wf_bool8 : (Instr.ampPower (.int 1)).wf Cfg.default = false ∧
    (Instr.ampPower (.int 256)).wf Cfg.default = false := by decide
theorem test_wf_payload : (Instr.rspVersionString (List.replicate 28 0x41)).wf Cfg.default = false := by decide
theorem test_cfg_wf : Cfg.default.wf := by decide
/-- A configuration ill-formed in each way R6 names, and in the two ways of log entry 17. -/
def illFormed : List Cfg :=
  [{ Cfg.default with maxLen := 11 }, { Cfg.default with maxLen := 256 }, { Cfg.default with numVoices := 0 },
   { Cfg.default with numVoices := 257 }, { Cfg.default with versionMax := 0 }, { Cfg.default with playingCap := 0 },
   { Cfg.default with versionMax := 256 }, { Cfg.default with playingCap := 256 },
   { Cfg.default with opRspStatus := 0x82 }, { Cfg.default with opStopAll := 0x03 }]
theorem test_cfg_ill_formed : ∀ c ∈ illFormed, ¬ c.wf := by decide

/-! ### Decoding: a frame per row, written from its `encoding` in opcode_table.json -/

theorem test_decode_trackControl : decode Cfg.default .command
    [0b11110000, 0b10101010, 0b00001000, 0b00000011, 0b00000000, 0b00000111, 0b00000000, 0b01010101] =
    .ok (.trackControl 0 7) := by decide
theorem test_decode_trackControlEx : decode Cfg.default .command
    [0b11110000, 0b10101010, 0b00001001, 0b00010001, 0b00000001, 0b00101100, 0b00000001, 0b00000001, 0b01010101] =
    .ok (.trackControlEx 1 300 (.bool true)) := by decide
theorem test_decode_trackVolume : decode Cfg.default .command
    [0b11110000, 0b10101010, 0b00001001, 0b00001000, 0b00000101, 0b00000000, 0b11110110, 0b11111111, 0b01010101] =
    .ok (.trackVolume 5 0xFFF6) := by decide
theorem test_decode_trackFade : decode Cfg.default .command
    [0b11110000, 0b10101010, 0b00001100, 0b00001010, 0b00000101, 0b00000000, 0b11011000, 0b11111111, 0b11010000,
     0b00000111, 0b00000001, 0b01010101] = .ok (.trackFade 5 0xFFD8 2000 (.bool true)) := by decide
theorem test_decode_masterVolume : decode Cfg.default .command
    [0b11110000, 0b10101010, 0b00000111, 0b00000101, 0b11111010, 0b11111111, 0b01010101] =
    .ok (.masterVolume 0xFFFA) := by decide
theorem test_decode_samplerateOffset : decode Cfg.default .command
    [0b11110000, 0b10101010, 0b00000111, 0b00001100, 0b00000000, 0b10000000, 0b01010101] =
    .ok (.samplerateOffset 0x8000) := by decide
theorem test_decode_stopAll : decode Cfg.default .command
    [0b11110000, 0b10101010, 0b00000101, 0b00000100, 0b01010101] = .ok .stopAll := by decide
theorem test_decode_resumeAllSync : decode Cfg.default .command
    [0b11110000, 0b10101010, 0b00000101, 0b00001011, 0b01010101] = .ok .resumeAllSync := by decide
theorem test_decode_getVersion : decode Cfg.default .command
    [0b11110000, 0b10101010, 0b00000101, 0b00000001, 0b01010101] = .ok .getVersion := by decide
theorem test_decode_getSysInfo : decode Cfg.default .command
    [0b11110000, 0b10101010, 0b00000101, 0b00000010, 0b01010101] = .ok .getSysInfo := by decide
theorem test_decode_getStatus : decode Cfg.default .command
    [0b11110000, 0b10101010, 0b00000101, 0b00000111, 0b01010101] = .ok .getStatus := by decide
theorem test_decode_ampPower : decode Cfg.default .command
    [0b11110000, 0b10101010, 0b00000110, 0b00001001, 0b00000000, 0b01010101] = .ok (.ampPower (.bool false)) := by decide
theorem test_decode_setReporting : decode Cfg.default .command
    [0b11110000, 0b10101010, 0b00000110, 0b00001101, 0b00000111, 0b01010101] = .ok (.setReporting (.int 7)) := by decide
theorem test_decode_setTriggerBank : decode Cfg.default .command
    [0b11110000, 0b10101010, 0b00000110, 0b00001110, 0b00101100, 0b01010101] = .ok (.setTriggerBank 44) := by decide
theorem test_decode_rspVersionString : decode Cfg.default .response
    [0b11110000, 0b10101010, 0b00000111, 0b10000001, 0b01011000, 0b01011001, 0b01010101] =
    .ok (.rspVersionString [0x58, 0x59]) := by decide
theorem test_decode_rspSystemInfo : decode Cfg.default .response
    [0b11110000, 0b10101010, 0b00001000, 0b10000010, 0b00001000, 0b01100100, 0b00000000, 0b01010101] =
    .ok (.rspSystemInfo [0x08, 0x64, 0x00]) := by decide
theorem test_decode_rspStatus : decode Cfg.default .response
    [0b11110000, 0b10101010, 0b00000111, 0b10000011, 0b00000101, 0b00000000, 0b01010101] =
    .ok (.rspStatus [0x05, 0x00]) := by decide
theorem test_decode_rspTrackReport : decode Cfg.default .response
    [0b11110000, 0b10101010, 0b00001001, 0b10000100, 0b00000100, 0b00000000, 0b00000010, 0b00000001, 0b01010101] =
    .ok (.rspTrackReport [0x04, 0x00, 0x02, 0x01]) := by decide
/-- R69, R70 and assumption 20: an unknown opcode, a malformation and a wrong payload length, each by its name. -/
theorem test_decode_rejects :
    decode Cfg.default .response [0xF0, 0xAA, 0x05, 0x03, 0x55] = .error (.unknownOpcode 0x03) ∧
    decode Cfg.default .command [0xF0, 0xAA, 0x05, 0x04, 0x56] = .error (.malformed .badEom) ∧
    decode Cfg.default .command [0xF0, 0xAA, 0x06, 0x04, 0x00, 0x55] = .error (.payloadLength 0x04 1) := by decide
/-- Table words: an opcode alone stands for its row with operand bits of zero (assumption 7). -/
theorem test_decode_tableWord :
    decodeTableWord 8 0x0A = some (.trackFade 0 0 0 (.bool false)) ∧
    decodeTableWord 24 0x070003 = some (.trackControl 0 7) ∧
    decodeTableWord 8 0x84 = some (.rspTrackReport [0, 0, 0, 0]) ∧ decodeTableWord 8 0x42 = none := by decide

/-! ### Packers and whole-frame check (sections 2.1 and 2.2) -/

theorem test_packers : p16 (-32769) = [0xFF, 0x7F] ∧ p16 65536 = [0, 0] ∧ p16 40000 = [0x40, 0x9C] ∧
    p8 300 = [0x2C] ∧ p8 (-1) = [0xFF] ∧ pBool (.bool true) = [1] := by decide
theorem test_encode_markers_unescaped :
    encodeFrame Cfg.default 0x03 [0xF0, 0xAA, 0x55] = some [0xF0, 0xAA, 0x08, 0x03, 0xF0, 0xAA, 0x55, 0x55] := by decide
theorem test_encode_too_long : encodeFrame Cfg.default 0x81 (List.replicate 28 0x41) = none ∧
    (encodeFrame Cfg.default 0x81 (List.replicate 27 0x41)).map List.length = some 32 := by decide
theorem test_parser_codes : [ParserState.awaitSom1, .awaitSom2, .awaitLen, .accumulatingPayload, .awaitEom].map
    ParserState.code = [0, 1, 2, 3, 4] := by decide
theorem test_error_codes : ((Event.dropped .lenMismatch).errorClass.map ErrorClass.code) = some 5 ∧
    (Reply.query .status .unavailable).errorClass.map ErrorClass.code = some 32 := by decide
/-- R140's "host sees" column: `len_err = 1` for LenError, nothing for a MalformedFrame. -/
theorem test_host_sees : (Reply.reading (.lenErr true)).errorClass = some .lenError ∧
    (Reply.validated (.malformed .badEom)).errorClass = none ∧
    (Verdict.malformed .badEom).errorClass.map ErrorClass.code = some 4 := by decide

/-! ### Commands (section 2.6) -/

theorem test_trackControl_wraps : txOf (.trackControl 257 (-1)) = some [0xF0, 0xAA, 0x08, 0x03, 0x01, 0xFF, 0xFF, 0x55] := by
  decide
theorem test_trackControlEx : txOf (.trackControlEx 1 300 (.bool true)) =
    some [0xF0, 0xAA, 0x09, 0x11, 0x01, 0x2C, 0x01, 0x01, 0x55] := by decide
theorem test_trackVolume_wraps : txOf (.trackVolume 1 (-32769)) =
    some [0xF0, 0xAA, 0x09, 0x08, 0x01, 0x00, 0xFF, 0x7F, 0x55] := by decide
theorem test_trackFade_wraps : txOf (.trackFade 1 0 70000 (.bool false)) =
    some [0xF0, 0xAA, 0x0C, 0x0A, 0x01, 0x00, 0x00, 0x00, 0x70, 0x11, 0x00, 0x55] := by decide
theorem test_masterVolume : txOf (.masterVolume (-6)) = some [0xF0, 0xAA, 0x07, 0x05, 0xFA, 0xFF, 0x55] := by decide
theorem test_samplerateOffset : txOf (.samplerateOffset 32768) = some [0xF0, 0xAA, 0x07, 0x0C, 0x00, 0x80, 0x55] := by
  decide
theorem test_stopAll : txOf .stopAll = some [0xF0, 0xAA, 0x05, 0x04, 0x55] := by decide
/-- R123: the voice table is not cleared. -/
theorem test_stopAll_keeps_voices : (nextOf (exec .stopAll (holding (busy 5)))).map (·.status.voice) = some voice2on5 := by
  decide
theorem test_resumeAllSync : txOf .resumeAllSync = some [0xF0, 0xAA, 0x05, 0x0B, 0x55] := by decide
theorem test_getVersion : txOf .getVersion = some [0xF0, 0xAA, 0x05, 0x01, 0x55] := by decide
theorem test_getSysInfo : txOf .getSysInfo = some [0xF0, 0xAA, 0x05, 0x02, 0x55] := by decide
theorem test_getStatus : txOf .getStatus = some [0xF0, 0xAA, 0x05, 0x07, 0x55] := by decide
theorem test_ampPower : txOf (.ampPower (.bool true)) = some [0xF0, 0xAA, 0x06, 0x09, 0x01, 0x55] := by decide
theorem test_setReporting : txOf (.setReporting (.bool false)) = some [0xF0, 0xAA, 0x06, 0x0D, 0x00, 0x55] := by decide
theorem test_setTriggerBank_wraps : txOf (.setTriggerBank 300) = some [0xF0, 0xAA, 0x06, 0x0E, 0x2C, 0x55] := by decide

/-! ### Responses (section 2.5) -/

theorem test_version_stops_at_nul :
    (nextOf (pollBytes [0xF0, 0xAA, 0x0A, 0x81, 0x57, 0x54, 0x00, 0x58, 0x59, 0x55] s0)).map
      (fun t => (t.status.version, readAccessor t .version)) =
    some ([0x57, 0x54, 0x00, 0x58, 0x59], .version [0x57, 0x54]) := by decide
theorem test_version_truncated :
    polled ([0xF0, 0xAA, 0x20, 0x81] ++ List.replicate 27 0x41 ++ [0x55]) =
    some ({ st0 with version := List.replicate 20 0x41, versionRcvd := true },
      [.dispatched 0x81 (List.replicate 27 0x41)]) := by decide
theorem test_sysInfo : polled sysInfoFrame =
    some ({ st0 with numVoices := 8, numTracks := 100, sysinfoRcvd := true }, [.dispatched 0x82 [0x08, 0x64, 0x00]]) := by
  decide
theorem test_sysInfo_short : polled [0xF0, 0xAA, 0x07, 0x82, 0x08, 0x64, 0x55] =
    some ({ st0 with lenErr := true }, [.lenError 0x82]) := by decide
theorem test_status_odd : polled [0xF0, 0xAA, 0x0A, 0x83, 0x03, 0x00, 0x07, 0x00, 0x0A, 0x55] =
    some ({ st0 with playing := [3, 7], statusRcvd := true, lenErr := true },
      [.lenError 0x83, .dispatched 0x83 [0x03, 0x00, 0x07, 0x00, 0x0A]]) := by decide
theorem test_status_saturates :
    (polled [0xF0, 0xAA, 0x17, 0x83, 1, 0, 2, 0, 3, 0, 4, 0, 5, 0, 6, 0, 7, 0, 8, 0, 9, 0, 0x55]).map (·.1.playing) =
    some [1, 2, 3, 4, 5, 6, 7, 8] := by decide
theorem test_report_no_wrap : (polled [0xF0, 0xAA, 0x09, 0x84, 0xFF, 0xFF, 0x00, 0x01, 0x55]).map (·.1.voice[0]?) =
    some (some (some 65536)) := by decide
/-- L1.3: a stop for track 5 leaves a slot that holds track 9, and clears one that holds track 5. -/
theorem test_report_stale_stop :
    (nextOf (exec (.rspTrackReport [0x04, 0x00, 0x02, 0x00]) (holding (busy 9)))).map (·.status.voice[2]?) =
      some (some (some 9)) ∧
    (nextOf (exec (.rspTrackReport [0x04, 0x00, 0x02, 0x00]) (holding (busy 5)))).map (·.status.voice[2]?) =
      some (some none) := by decide

/-! ### The parser (sections 2.3 and 2.4) -/

theorem test_len_limits : parserAfter [0xF0, 0xAA, 0x20] = some (.accumulatingPayload, 3, 32) ∧
    parserAfter [0xF0, 0xAA, 0x05] = some (.accumulatingPayload, 3, 5) ∧
    parserAfter [0xF0, 0xAA, 0x21] = some (.awaitSom1, 0, 0) ∧ parserAfter [0xF0, 0xAA, 0x04] = some (.awaitSom1, 0, 0) := by
  decide
theorem test_minimal_frame : parserAfter [0xF0, 0xAA, 0x05, 0x42] = some (.awaitEom, 4, 5) ∧
    polled [0xF0, 0xAA, 0x05, 0x42, 0x55] = some (st0, [.ignored 0x42]) := by decide
theorem test_second_som1_is_consumed : polled [0xF0, 0xF0, 0xAA] = some (st0, [.dropped .badSom2]) := by decide
/-- V-R4: a longer LEN swallows the next frame. -/
theorem test_longer_len_loses_next :
    polled ([0xF0, 0xAA, 0x0A, 0x82, 0x08, 0x64, 0x00, 0x55] ++ reportFrame) = some (st0, [.dropped .badEom]) := by decide
/-- V-R6: a shorter LEN that meets an EOM value dispatches a truncated frame. -/
theorem test_shorter_len_truncates :
    polled ([0xF0, 0xAA, 0x05, 0x82, 0x55, 0x64, 0x00, 0x55] ++ reportFrame) =
    some ({ st0 with lenErr := true, voice := voice2on5 },
      [.lenError 0x82, .dispatched 0x84 [0x04, 0x00, 0x02, 0x01]]) := by decide
/-- V-R8: a marker inside a damaged frame starts a phantom frame. -/
theorem test_phantom_frame :
    polled ([0xF0, 0x00, 0x0B, 0x83, 0xF0, 0xAA, 0x07, 0x00, 0x01, 0x00, 0x55] ++ reportFrame) =
    some ({ st0 with voice := voice2on5 },
      [.dropped .badSom2, .ignored 0x00, .dispatched 0x84 [0x04, 0x00, 0x02, 0x01]]) := by decide

/-! ### The facade (sections 2.6, 2.7 and 3) -/

/-- V-E22. -/
theorem test_crossfade : (nextOf (crossfade 5 6 0 1000 s0)).map (·.env.tx) =
    some [0xF0, 0xAA, 0x09, 0x08, 0x06, 0x00, 0xD8, 0xFF, 0x55, 0xF0, 0xAA, 0x08, 0x03, 0x01, 0x06, 0x00, 0x55,
      0xF0, 0xAA, 0x0C, 0x0A, 0x06, 0x00, 0x00, 0x00, 0xE8, 0x03, 0x00, 0x55,
      0xF0, 0xAA, 0x0C, 0x0A, 0x05, 0x00, 0xD8, 0xFF, 0xE8, 0x03, 0x01, 0x55] := by decide
/-- V-Q8: the answer to another query is consumed and applied, and this query still ends unanswered. -/
theorem test_query_other_answer :
    (nextOf (query .sysInfo { s0 with env := { s0.env with waitTurns :=
      [{ arrivals := [0xF0, 0xAA, 0x0B, 0x81, 0x57, 0x54, 0x31, 0x2E, 0x33, 0x30, 0x55], late := [], elapsed := true }] } })).map
      (fun t => (t.env.replies, t.status.versionRcvd)) = some ([.query .sysInfo .unavailable], true) := by decide
/-- V-Q4: the flag is tested before `elapsed()`. -/
theorem test_query_flag_first :
    (nextOf (query .status { s0 with env := { s0.env with waitTurns :=
      [{ arrivals := [0xF0, 0xAA, 0x09, 0x83, 0x05, 0x00, 0x06, 0x00, 0x55], late := [], elapsed := true }] } })).map
      (·.env.replies) = some [.query .status (.status [5, 6])] := by decide

/-! ### Witnesses: for each statement with hypotheses, a state and operands that meet them

The statements over all configurations take `Cfg.default` or the configuration of `s0`, well-formed by `test_cfg_wf`. -/

theorem witness_NarrowingWrapsAndReadsBack : (-32768 : Int) ≤ -32768 ∧ (-32768 : Int) ≤ 32767 ∧
    (-32768 : Int) ≤ 32767 ∧ (32767 : Int) ≤ 32767 := by decide
theorem witness_EncodeReturnsTheFrameOrRefuses :
    5 + (List.replicate 27 (0x41 : Byte)).length ≤ s0.cfg.maxLen ∧
    s0.cfg.maxLen < 5 + (List.replicate 28 (0x41 : Byte)).length := by decide
/-- One list per clause, in the order of the clauses (section 2.2): V-V3, V-V5, `[F0 AA]`, V-V7, V-V8, V-V9, V-V11,
V-V12, V-V1. -/
theorem witness_ValidateReportsTheFirstFailingCheck : Cfg.default.wf ∧
    ([] : List Byte)[0]? ≠ some Cfg.default.som1 ∧
    ([0xF0] : List Byte)[0]? = some Cfg.default.som1 ∧ ([0xF0] : List Byte)[1]? ≠ some Cfg.default.som2 ∧
    ([0xF0, 0xAA] : List Byte)[1]? = some Cfg.default.som2 ∧ ([0xF0, 0xAA] : List Byte)[2]? = none ∧
    (4 : Byte).toNat < 5 ∧ Cfg.default.maxLen < (33 : Byte).toNat ∧ 5 ≤ (8 : Byte).toNat ∧
    (8 : Byte).toNat ≤ Cfg.default.maxLen ∧ (sysInfoFrame.take 7).length < (8 : Byte).toNat ∧
    (sysInfoFrame.set 2 7)[(7 : Byte).toNat - 1]? ≠ some Cfg.default.eom ∧
    (5 : Byte).toNat < ([0xF0, 0xAA, 0x05, 0x42, 0x55, 0x00] : List Byte).length ∧
    ([0xF0, 0xAA, 0x05, 0x42, 0x55, 0x00] : List Byte)[(5 : Byte).toNat - 1]? = some Cfg.default.eom ∧
    sysInfoFrame.length = (8 : Byte).toNat ∧ sysInfoFrame[(8 : Byte).toNat - 1]? = some Cfg.default.eom := by decide
theorem witness_ValidateAcceptsExactlyTheEncodedFrames : Cfg.default.wf ∧
    validate Cfg.default sysInfoFrame = .ok (0x82, [0x08, 0x64, 0x00]) := by decide
theorem witness_DecodeOfEncodeIsTheInstruction : Cfg.default.wf ∧
    (Instr.trackControl 255 65535).wf Cfg.default = true ∧ (Instr.trackControlEx 0 0 (.int 2)).wf Cfg.default = true ∧
    (Instr.trackVolume 65535 65535).wf Cfg.default = true ∧
    (Instr.trackFade 65535 0 65535 (.int 255)).wf Cfg.default = true ∧ (Instr.masterVolume 65535).wf Cfg.default = true ∧
    (Instr.samplerateOffset 0).wf Cfg.default = true ∧ Instr.stopAll.wf Cfg.default = true ∧
    Instr.resumeAllSync.wf Cfg.default = true ∧ Instr.getVersion.wf Cfg.default = true ∧
    Instr.getSysInfo.wf Cfg.default = true ∧ Instr.getStatus.wf Cfg.default = true ∧
    (Instr.ampPower (.bool false)).wf Cfg.default = true ∧ (Instr.setReporting (.bool true)).wf Cfg.default = true ∧
    (Instr.setTriggerBank 255).wf Cfg.default = true ∧
    (Instr.rspVersionString (List.replicate 27 0x41)).wf Cfg.default = true ∧
    (Instr.rspSystemInfo []).wf Cfg.default = true ∧ (Instr.rspStatus [5]).wf Cfg.default = true ∧
    (Instr.rspTrackReport [1, 2, 3]).wf Cfg.default = true := by decide
theorem witness_EncodeOfDecodeIsTheFrame : Cfg.default.wf ∧
    decode Cfg.default .response sysInfoFrame = .ok (.rspSystemInfo [0x08, 0x64, 0x00]) ∧
    decode Cfg.default .command [0xF0, 0xAA, 0x05, 0x04, 0x55] = .ok .stopAll := by decide
theorem witness_EveryCommandRoundTripsNarrowed : s0.cfg.wf ∧
    (Instr.trackFade (-1) 65536 70000 (.int 300)).direction = .command ∧ s0.env.nextWrite = .ok := by decide
/-- The two clauses of `SendsExactly`, for every command statement: an accepted write, and one that fails with none and
with all of the frame on the wire. -/
theorem witness_SendsExactly : s0.cfg.wf ∧ s0.env.nextWrite = .ok ∧ (answering [.fail 0]).env.nextWrite = .fail 0 ∧
    (answering [.fail 12]).env.nextWrite = .fail 12 := by decide
theorem witness_OutOfRangeOperandsAreWrappedNotRefused : s0.cfg.wf ∧
    (Instr.trackFade (-1) 65536 70000 (.int 300)).direction = .command ∧ s0.env.nextWrite = .ok ∧
    (answering [.fail 12]).env.nextWrite = .fail 12 := by decide
theorem witness_ClosedTransportFailsEveryCommand : State.reset.cfg.wf ∧ Instr.stopAll.direction = .command ∧
    State.reset.env.transport = none := by decide
/-- A state and a byte for each row of R90, in the order of the clauses. -/
theorem witness_RxStepFollowsTheTransitionTable :
    (s0.parser.ok s0.cfg = true ∧ s0.parser.st = .awaitSom1 ∧ (0xF0 : Byte) = s0.cfg.som1 ∧ (0x55 : Byte) ≠ s0.cfg.som1) ∧
    ((parsing .awaitSom2 1 0 []).parser.ok s0.cfg = true ∧ (0xAA : Byte) = s0.cfg.som2 ∧ (0xF0 : Byte) ≠ s0.cfg.som2) ∧
    ((parsing .awaitLen 2 0 []).parser.ok s0.cfg = true ∧ 5 ≤ (5 : Byte).toNat ∧ (32 : Byte).toNat ≤ s0.cfg.maxLen ∧
      (4 : Byte).toNat < 5 ∧ s0.cfg.maxLen < (33 : Byte).toNat) ∧
    ((parsing .accumulatingPayload 3 8 []).parser.ok s0.cfg = true ∧ (3 : BitVec 8).toNat + 1 < (8 : BitVec 8).toNat - 1) ∧
    ((parsing .accumulatingPayload 6 8 [0x82, 0x08, 0x64]).parser.ok s0.cfg = true ∧
      (6 : BitVec 8).toNat + 1 = (8 : BitVec 8).toNat - 1) ∧
    ((parsing .awaitEom 7 8 [0x82, 0x08, 0x64, 0x00]).parser.ok s0.cfg = true ∧ (0x56 : Byte) ≠ s0.cfg.eom ∧
      (0x55 : Byte) = s0.cfg.eom) := by decide
theorem witness_RxStepIsTotalOnTheInvariant : s0.cfg.wf ∧ s0.parser.ok s0.cfg = true := by decide
theorem witness_RxStepOutsideTheInvariantIsStuck : (parsing .awaitEom 3 8 []).parser.ok s0.cfg = false := by decide
theorem witness_BufferWritesStayInBounds : s0.cfg.wf ∧ (parsing .accumulatingPayload 30 32 []).parser.ok s0.cfg = true ∧
    (parsing .accumulatingPayload 30 32 []).parser.st = .accumulatingPayload ∧
    (parsing .accumulatingPayload 3 5 []).parser.ok s0.cfg = true ∧
    (parsing .accumulatingPayload 3 5 []).parser.st = .accumulatingPayload := by decide
theorem witness_ParserDispatchesAValidFrameExactlyOnce : s0.cfg.wf ∧ s0.AtRest ∧
    validate s0.cfg sysInfoFrame = .ok (0x82, [0x08, 0x64, 0x00]) ∧ 7 < sysInfoFrame.length := by decide
theorem witness_DispatchedFramesAreTheLastBytesConsumed :
    s0.cfg.wf ∧ s0.AtRest ∧
    ∃ m, pollBytes (0x00 :: sysInfoFrame.take 7) s0 = .next m ∧ m.parser.st = .awaitEom ∧
      m.parser.buf.take (m.parser.len.toNat - 4) = 0x82 :: [0x08, 0x64, 0x00] :=
  ⟨by decide, by decide, parsing .awaitEom 7 8 [0x82, 0x08, 0x64, 0x00], eq_next (by decide), by decide, by decide⟩
theorem witness_CorruptedEomLosesOnlyItsFrame : s0.cfg.wf ∧ s0.AtRest ∧
    validate s0.cfg sysInfoFrame = .ok (0x82, [0x08, 0x64, 0x00]) ∧
    validate s0.cfg reportFrame = .ok (0x84, [0x04, 0x00, 0x02, 0x01]) ∧ (0x56 : Byte) ≠ s0.cfg.eom ∧ 7 < sysInfoFrame.length := by decide
/-- The three corruptions of R103 case 2: V-R2, V-R3 and V-R3b (and LEN 4). -/
theorem witness_CorruptedHeaderRecoversWithoutAFalseStart : s0.cfg.wf ∧ s0.AtRest ∧
    validate s0.cfg sysInfoFrame = .ok (0x82, [0x08, 0x64, 0x00]) ∧
    validate s0.cfg reportFrame = .ok (0x84, [0x04, 0x00, 0x02, 0x01]) ∧ sysInfoFrame[2]? ≠ some 4 ∧
    sysInfoFrame[0]? ≠ some 0xF1 ∧ sysInfoFrame[1]? ≠ some 0xAB ∧ sysInfoFrame[2]? ≠ some 0x21 ∧
    (4 : Byte).toNat < 5 ∧ s0.cfg.maxLen < (0x21 : Byte).toNat ∧ (∀ b ∈ sysInfoFrame.drop 1, b ≠ s0.cfg.som1) ∧
    (∀ b ∈ sysInfoFrame.drop 2, b ≠ s0.cfg.som1) ∧ (∀ b ∈ sysInfoFrame.drop 3, b ≠ s0.cfg.som1) := by decide
/-- V-R6 for the first clause; LEN one below the length for the second. -/
theorem witness_ShortenedLenIsCheckedAtTheWrongEom : s0.cfg.wf ∧ s0.AtRest ∧
    validate s0.cfg (sysInfoFrame.set 4 0x55) = .ok (0x82, [0x55, 0x64, 0x00]) ∧ 5 ≤ (5 : Byte).toNat ∧
    (5 : Byte).toNat < (sysInfoFrame.set 4 0x55).length ∧
    (sysInfoFrame.set 4 0x55)[(5 : Byte).toNat - 1]? = some s0.cfg.eom ∧
    validate s0.cfg sysInfoFrame = .ok (0x82, [0x08, 0x64, 0x00]) ∧ 5 ≤ (7 : Byte).toNat ∧
    (7 : Byte).toNat < sysInfoFrame.length ∧ sysInfoFrame[(7 : Byte).toNat - 1]? ≠ some s0.cfg.eom := by decide
theorem witness_CorruptedPayloadIsNotDetected : s0.cfg.wf ∧ s0.AtRest ∧
    validate s0.cfg sysInfoFrame = .ok (0x82, [0x08, 0x64, 0x00]) ∧ 3 ≤ 3 ∧ 6 ≤ sysInfoFrame.length - 2 := by decide
theorem witness_OneRxStepRecordsOneOutcome :
    ∃ t, rxStep 0x55 (parsing .awaitEom 4 5 [0x42]) = .next t ∧ t.env.trace = [.ignored 0x42] :=
  ⟨{ parsing .awaitSom1 0 0 [0x42] with env := { s0.env with trace := [.ignored 0x42] } }, eq_next (by decide), rfl⟩
theorem witness_DispatchRunsTheRowOrIgnores : s0.cfg.wf ∧ (0x81 : Byte) = s0.cfg.opRspVersionString ∧
    (0x82 : Byte) = s0.cfg.opRspSystemInfo ∧ (0x84 : Byte) = s0.cfg.opRspTrackReport ∧
    (0x83 : Byte) = s0.cfg.opRspStatus ∧ (0x80 : Byte) ∉ s0.cfg.responseOpcodes ∧
    (0x85 : Byte) ∉ s0.cfg.responseOpcodes := by decide
theorem witness_SysInfoResponseStoresTheCounts :
    (∃ voices t0 t1 rest, ([0x08, 0x64, 0x00] : List Byte) = voices :: t0 :: t1 :: rest) ∧
    ([0x08, 0x64] : List Byte).length < 3 := ⟨⟨_, _, _, _, rfl⟩, by decide⟩
/-- The first clause at its inner boundaries: voices 13 and 14 of 14, state bytes 0 and 1; the second at three bytes. -/
theorem witness_TrackReportUpdatesOneVoice :
    (∃ t0 t1 v x rest, ([0xFF, 0xFF, 0x0D, 0x01] : List Byte) = t0 :: t1 :: v :: x :: rest) ∧
    ¬ s0.cfg.numVoices ≤ (0x0D : Byte).toNat ∧ s0.cfg.numVoices ≤ (0x0E : Byte).toNat ∧
    (busy 5).voice[(2 : Byte).toNat]? = some (some 5) ∧ ([0x04, 0x00, 0x02] : List Byte).length < 4 :=
  ⟨⟨_, _, _, _, _, rfl⟩, by decide, by decide, by decide, by decide⟩
/-- An odd payload's last whole entry, the last entry of the capacity, and the shortest odd payload past the capacity
(assumption 28). -/
theorem witness_StatusResponseReplacesThePlayingList :
    1 < min (([3, 0, 7, 0, 10] : List Byte).length / 2) s0.cfg.playingCap ∧
    ([3, 0, 7, 0, 10] : List Byte)[2 * 1]? = some 7 ∧ ([3, 0, 7, 0, 10] : List Byte)[2 * 1 + 1]? = some 0 ∧
    7 < min ((List.replicate 18 (1 : Byte)).length / 2) s0.cfg.playingCap ∧
    (List.replicate 18 (1 : Byte))[2 * 7]? = some 1 ∧ (List.replicate 18 (1 : Byte))[2 * 7 + 1]? = some 1 ∧
    (List.replicate 17 (1 : Byte)).length = 2 * s0.cfg.playingCap + 1 ∧ 7 < (List.replicate 17 (1 : Byte)).length / 2 ∧
    (List.replicate 17 (1 : Byte))[2 * 7 + 1]? = some 1 := by decide
theorem witness_StepRunsTheIssuedCommand : (queued [.issue .stopAll, .poll] []).env.ops = .issue .stopAll :: [.poll] ∧
    Instr.stopAll.direction = .command := by decide
theorem witness_FetchedCommandIsTheNextStep :
    decode s0.cfg .command (tableFrame s0.cfg 24 0x070003) = .ok (.trackControl 0 7) ∧
    decode s0.cfg .command (tableFrame s0.cfg 8 0x04) = .ok .stopAll := by decide
/-- A parser before the EOM byte of a sys-info frame, and that byte the next operation. -/
def beforeEom : State :=
  { parsing .awaitEom 7 8 [0x82, 0x08, 0x64, 0x00] with env := { s0.env with ops := [.rxStep 0x55] } }
theorem witness_StepOnTheLastByteRunsTheResponse : beforeEom.cfg.wf ∧ beforeEom.parser.ok beforeEom.cfg = true ∧
    beforeEom.parser.st = .awaitEom ∧ beforeEom.env.ops = .rxStep beforeEom.cfg.eom :: [] ∧
    decode beforeEom.cfg .response ([beforeEom.cfg.som1, beforeEom.cfg.som2, beforeEom.parser.len] ++
      beforeEom.parser.buf.take (beforeEom.parser.len.toNat - 4) ++ [beforeEom.cfg.eom]) =
      .ok (.rspSystemInfo [0x08, 0x64, 0x00]) := by decide
theorem witness_PollOfAWholeFrameRunsItsResponse : s0.cfg.wf ∧ (queued [.poll] reportFrame).AtRest ∧
    (queued [.poll] reportFrame).env.ops = .poll :: [] ∧
    decode s0.cfg .response (queued [.poll] reportFrame).env.rx = .ok (.rspTrackReport [0x04, 0x00, 0x02, 0x01]) := by decide
theorem witness_ConstructionResetsOrRefuses : Cfg.default.wf ∧ ∀ c ∈ illFormed, ¬ c.wf := by decide
theorem witness_ResetWritesEveryRegister : (queued [.reset] []).env.ops = .reset :: [] := by decide
/-- The invariant with a frame in progress, every flag set and a track in the table; and a step from it. -/
theorem witness_EveryStepKeepsTheInvariant :
    ∃ t, State.Inv { queued [.poll] (reportFrame.drop 3) with
          parser := (parsing .accumulatingPayload 3 9 []).parser, status := busy 65536 } ∧
      step { queued [.poll] (reportFrame.drop 3) with
          parser := (parsing .accumulatingPayload 3 9 []).parser, status := busy 65536 } = .next t :=
  ⟨{ parsing .awaitSom1 0 0 [0x84, 0x04, 0x00, 0x02, 0x01] with
      status := busy 5, env := { s0.env with trace := [.dispatched 0x84 [0x04, 0x00, 0x02, 0x01]] } },
    by decide, eq_next (by decide)⟩
theorem witness_EveryOperationReturns : (queued [.issue .stopAll] []).Inv ∧
    ∀ i rest, (queued [.issue .stopAll] []).env.ops = .issue i :: rest → i.direction = .command :=
  ⟨by decide, fun _ _ h => by cases h; rfl⟩
theorem witness_ResponsesAreNotIssued :
    (queued [.issue (.rspStatus [])] []).env.ops = .issue (.rspStatus []) :: [] ∧
    (Instr.rspStatus []).direction = .response := by decide
theorem witness_ConfigurationIsNeverWritten : ∃ t, step (queued [.reset] []) = .next t := ⟨_, eq_next rfl⟩
/-- Each clause on an operation: one that feeds nothing, a byte, a poll, a query whose request is not sent and one whose
request is; and the clause on a status register. -/
theorem witness_WriteAccessIsComplete :
    (∃ t, step (queued [.issue .stopAll] []) = .next t ∧ HostOp.feedsParser (.issue .stopAll) = false ∧
      HostOp.issue .stopAll ≠ .reset) ∧
    (∃ t, step (queued [.rxStep 0xF0] []) = .next t) ∧
    (∃ t, step (queued [.poll] reportFrame) = .next t) ∧
    (∃ t, step { State.reset with env := { Env.initial with ops := [.query .status] } } = .next t ∧
      (sendFrame (requestOpcode State.reset.cfg .status) [] { State.reset with env :=
        { Env.initial with ops := [.query .status] } }).1 ≠ .ok) ∧
    (∃ t, step (queued [.query .status] []) = .next t ∧
      (sendFrame (requestOpcode s0.cfg .status) [] (queued [.query .status] [])).1 = .ok) ∧
    (∃ t, rxStep 0x55 (parsing .awaitEom 5 6 [0x81, 0x41]) = .next t ∧
      t.status ≠ (parsing .awaitEom 5 6 [0x81, 0x41]).status) :=
  ⟨⟨_, eq_next rfl, rfl, by decide⟩, ⟨_, eq_next rfl⟩,
    ⟨{ parsing .awaitSom1 0 0 [0x84, 0x04, 0x00, 0x02, 0x01] with
        status := { st0 with voice := voice2on5 },
        env := { s0.env with trace := [.dispatched 0x84 [0x04, 0x00, 0x02, 0x01]] } }, eq_next (by decide)⟩,
    ⟨_, eq_next rfl, by decide⟩, ⟨_, eq_next rfl, by decide⟩,
    ⟨{ parsing .awaitSom1 0 0 [0x81, 0x41] with
        status := { st0 with version := [0x41], versionRcvd := true },
        env := { s0.env with trace := [.dispatched 0x81 [0x41]] } }, eq_next (by decide), by decide⟩⟩
theorem witness_FlagsAreStickyUntilReset :
    HostOp.issue .stopAll ≠ .reset ∧
    (∃ t, step { queued [.issue .stopAll] [] with status := busy 5 } = .next t) ∧ (busy 5).versionRcvd = true ∧
    (busy 5).sysinfoRcvd = true ∧ (busy 5).statusRcvd = true ∧ (busy 5).lenErr = true :=
  ⟨by decide, ⟨_, eq_next rfl⟩, rfl, rfl, rfl, rfl⟩
theorem witness_OutputsOnlyGrow : ∃ t, step (queued [.issue .getVersion] []) = .next t := ⟨_, eq_next rfl⟩
theorem witness_InstancesShareNoState : (1 : Nat) ≠ 0 ∧
    ∃ fleet', stepInstance 0 [queued [.reset] [], s0] = .next fleet' := ⟨by decide, _, rfl⟩
/-- The three clauses, the second for a failure at each of the four writes. -/
theorem witness_CrossfadeSendsInOrderAndStopsAtAFailure : s0.cfg.wf ∧ s0.env.transport ≠ none ∧
    (∀ a ∈ s0.env.writeAnswers.take 4, a = WriteAnswer.ok) ∧
    (answering [.fail 0]).env.writeAnswers = List.replicate 0 .ok ++ .fail 0 :: [] ∧
    (answering [.ok, .fail 8]).env.writeAnswers = List.replicate 1 .ok ++ .fail 8 :: [] ∧
    (answering [.ok, .ok, .fail 3]).env.writeAnswers = List.replicate 2 .ok ++ .fail 3 :: [] ∧
    (answering [.ok, .ok, .ok, .fail 12]).env.writeAnswers = List.replicate 3 .ok ++ .fail 12 :: [] ∧
    (crossfadeBytes s0.cfg 5 6 0 1000).length = 4 ∧ State.reset.env.transport = none := by decide
/-- The bounds, and the voice clauses at voices 13 and 14 of 14. -/
theorem witness_AccessorsReadTheStatusModel : (holding (busy 5)).status.ok s0.cfg ∧ 13 < s0.cfg.numVoices ∧
    s0.cfg.numVoices ≤ 14 := by decide
theorem witness_QueryEndsAndAnswersFromItsFlag : (holding (busy 5)).Inv ∧ s0.Inv ∧
    (holding (busy 5)).env.nextWrite = .ok ∧ s0.env.nextWrite = .ok := by decide
/-- `s` with one turn of a wait in which a sys-info frame arrives. -/
def answered (s : State) (elapsed : Bool) : State :=
  { s with env := { s.env with waitTurns := [{ arrivals := sysInfoFrame, late := [0xF0], elapsed := elapsed }] } }
/-- What the turn of `answered` polls, from `s0`. -/
def afterTurn : State :=
  { parsing .awaitSom1 0 0 [0x82, 0x08, 0x64, 0x00] with
    status := { st0 with numVoices := 8, numTracks := 100, sysinfoRcvd := true },
    env := { (answered s0 true).env with trace := [.dispatched 0x82 [0x08, 0x64, 0x00]] } }
/-- One turn, after which the sys-info flag is set and the other two are not; its bound elapsed or not. -/
theorem witness_QueryIterationTestsTheFlagThenTheBound :
    (answered s0 true).Inv ∧ (answered s0 true).env.nextWrite = .ok ∧ (answered s0 false).Inv ∧
    (answered s0 false).env.nextWrite = .ok ∧
    (answered s0 true).env.waitTurns = { arrivals := sysInfoFrame, late := [0xF0], elapsed := true } :: [] ∧
    pollBytes ((answered s0 true).env.rx ++ sysInfoFrame) (answered s0 true) = .next afterTurn ∧
    afterTurn.status.flag .sysInfo = true ∧ afterTurn.status.flag .version = false :=
  ⟨by decide, by decide, by decide, by decide, by decide, eq_next (by decide), by decide, by decide⟩
theorem witness_QueryWithoutARequestPollsNothing : s0.cfg.wf ∧ (answering [.fail 3]).env.nextWrite = .fail 3 := by decide
theorem witness_StickyFlagAnswersAfterOnePoll : (holding (busy 5)).Inv ∧ (holding (busy 5)).env.nextWrite = .ok ∧
    (holding (busy 5)).status.flag .version = true ∧ (holding (busy 5)).status.flag .sysInfo = true ∧
    (holding (busy 5)).status.flag .status = true := by decide
/-- A transport that delivers nothing, for two iterations of a wait. -/
def silent : State := { s0 with env := { s0.env with waitTurns := [.mk [] [] false, .mk [] [] true] } }
theorem witness_SilentTransportTimesTheQueryOut : silent.cfg.wf ∧ silent.env.nextWrite = .ok ∧
    silent.status.flag .version = false ∧ silent.status.flag .sysInfo = false ∧ silent.status.flag .status = false ∧
    silent.env.rx = [] ∧ (∀ turn ∈ silent.env.waitTurns, turn.arrivals = [] ∧ turn.late = []) := by decide
theorem witness_DiscardTouchesOnlyTheTransport :
    (queued [.discardBuffered] reportFrame).env.ops = .discardBuffered :: [] := by decide

end Sys2Proof.Tests
end

/-! PROOFS of the family 00_scope: the machine's invariant, its outputs, a command's step and construction. Each rests on one
inversion of `step`: a step's effect on the block is that of some polled bytes, or a reset. -/

namespace Sys2Proof.Machine

/-! ### The command input -/

/-- The command input runs a command, and answers for nothing else (R68). -/
theorem issueCommand_eq_next {i : Instr} {s t : State} :
    issueCommand i s = .next t ↔ i.direction = .command ∧ exec i s = .next t := by
  unfold issueCommand
  cases i.direction <;> simp

/-- Every named operation is a command (R132). -/
theorem expand_direction (c : Cfg) (n : NamedOp) : (n.expand c).direction = .command := by
  cases n <;> rfl

theorem popOp_of_ops {s : State} {op : HostOp} {rest : List HostOp} (h : s.env.ops = op :: rest) :
    s.popOp = { s with env := { s.env with ops := rest } } := by
  simp [State.popOp, h]

theorem step_of_ops {s : State} {op : HostOp} {rest : List HostOp} (h : s.env.ops = op :: rest) :
    step s = runOp op s.popOp := by
  simp [step, runNext, h]

/-- Settles O34: the command input runs the head of the queue. -/
theorem stepRunsTheIssuedCommand : Obligations.StepRunsTheIssuedCommand := by
  intro s i rest hops hi
  rw [step_of_ops hops, popOp_of_ops hops]
  simp [runOp, issueCommand, hi]

/-! ### What a step can do to the block -/

theorem sameBlock_trans {s t u : State} (h : SameBlock s t) (h' : SameBlock t u) : SameBlock s u := by
  obtain ⟨hc, hp, hs⟩ := h
  obtain ⟨hc', hp', hs'⟩ := h'
  exact ⟨hc'.trans hc, hp'.trans hp, hs'.trans hs⟩

theorem sameBlock_symm {s t : State} (h : SameBlock s t) : SameBlock t s := by
  obtain ⟨hc, hp, hs⟩ := h
  exact ⟨hc.symm, hp.symm, hs.symm⟩

/-- One `RxStep` is the poll of its byte (R101). -/
theorem pollBytes_singleton (b : Byte) (s : State) : pollBytes [b] s = rxStep b s := by
  rw [pollBytes_cons]
  cases rxStep b s <;> rfl

/-- The block of `t` is that of `s` after some bytes were polled, possibly none. -/
def PollsTo (s t : State) : Prop := ∃ bs m, pollBytes bs s = .next m ∧ SameBlock m t

theorem pollsTo_of_sameBlock {s t : State} (h : SameBlock s t) : PollsTo s t := ⟨[], s, rfl, h⟩

/-- Where the polled bytes start matters only by its block. -/
theorem PollsTo.of_sameBlock {s s' t : State} (hb : SameBlock s' s) (h : PollsTo s t) : PollsTo s' t := by
  obtain ⟨bs, m, hm, ht⟩ := h
  obtain ⟨m', hm', hmm'⟩ := pollBytes_sameBlock (sameBlock_symm hb) hm
  exact ⟨bs, m', hm', sameBlock_trans (sameBlock_symm hmm') ht⟩

/-- A command writes no block register (R36). -/
theorem exec_command_sameBlock {i : Instr} {s t : State} (hi : i.direction = .command) (h : exec i s = .next t) :
    SameBlock s t := by
  rw [exec_command hi, sendCommand] at h
  cases h
  exact (sendFrame_frame _ _ s).1

/-- A cross-fade writes no block register (R131). -/
theorem crossfade_sameBlock {a b g m : Int} {s t : State} (h : crossfade a b g m s = .next t) : SameBlock s t := by
  cases h
  exact (sendAll_frame _ s).1

/-- All that a query writes of the block is what the bytes its wait polled write (R134). -/
theorem query_pollsTo {k : QueryKind} {s t : State} (h : query k s = .next t) : PollsTo s t := by
  have hb := (sendFrame_frame (requestOpcode s.cfg k) [] s).1
  unfold query at h
  split at h
  next u e =>
    rw [e] at hb
    obtain ⟨bs, m, _, hm, hmt⟩ := queryLoop_polled k _ rfl h
    exact PollsTo.of_sameBlock hb ⟨bs, m, hm, hmt⟩
  next r u _ e =>
    rw [e] at hb
    cases h
    exact pollsTo_of_sameBlock hb

/-- The host's poll writes of the block what the bytes the transport holds write (R101). -/
theorem pollTransport_pollsTo {s t : State} (h : pollTransport s = .next t) : PollsTo s t :=
  PollsTo.of_sameBlock (s := { s with env := { s.env with rx := [] } }) ⟨rfl, rfl, rfl⟩
    ⟨s.env.rx, t, h, rfl, rfl, rfl⟩

/-- All that an operation can write of the block (R36): what some polled bytes write, or, if it is the reset input, the
reset values. -/
theorem runOp_block {op : HostOp} {s t : State} (h : runOp op s = .next t) :
    PollsTo s t ∨ (op = .reset ∧ t = resetRegisters s) := by
  cases op with
  | rxStep b => exact .inl ⟨[b], t, (pollBytes_singleton b s).trans h, rfl, rfl, rfl⟩
  | receive bs => cases h; exact .inl (pollsTo_of_sameBlock ⟨rfl, rfl, rfl⟩)
  | poll => exact .inl (pollTransport_pollsTo h)
  | issue i =>
    obtain ⟨hi, he⟩ := issueCommand_eq_next.mp h
    exact .inl (pollsTo_of_sameBlock (exec_command_sameBlock hi he))
  | named n => exact .inl (pollsTo_of_sameBlock (exec_command_sameBlock (expand_direction s.cfg n) h))
  | crossfade a b g m => exact .inl (pollsTo_of_sameBlock (crossfade_sameBlock h))
  | query k => exact .inl (query_pollsTo h)
  | read a => cases h; exact .inl (pollsTo_of_sameBlock ⟨rfl, rfl, rfl⟩)
  | encode o p => cases h; exact .inl (pollsTo_of_sameBlock ⟨rfl, rfl, rfl⟩)
  | validate r => cases h; exact .inl (pollsTo_of_sameBlock ⟨rfl, rfl, rfl⟩)
  | reset => cases h; exact .inr ⟨rfl, rfl⟩
  | openTransport l => cases h; exact .inl (pollsTo_of_sameBlock ⟨rfl, rfl, rfl⟩)
  | discardBuffered => cases h; exact .inl (pollsTo_of_sameBlock ⟨rfl, rfl, rfl⟩)

/-- A step is the operation at the head of the host's queue; with none pending the block takes none (R8). -/
theorem step_eq_next {s t : State} (h : step s = .next t) :
    (s.env.ops = [] ∧ t = s) ∨ ∃ op rest, s.env.ops = op :: rest ∧ runOp op s.popOp = .next t := by
  cases hops : s.env.ops with
  | nil =>
    simp only [step, runNext, hops] at h
    cases h
    exact .inl ⟨rfl, rfl⟩
  | cons op rest => exact .inr ⟨op, rest, rfl, (step_of_ops hops).symm.trans h⟩

/-- All that a step can write of the block: what some polled bytes write, or the reset values (R36). -/
theorem step_block {s t : State} (h : step s = .next t) : PollsTo s t ∨ SameBlock (resetRegisters s) t := by
  rcases step_eq_next h with ⟨_, rfl⟩ | ⟨op, rest, _, hop⟩
  · exact .inl (pollsTo_of_sameBlock ⟨rfl, rfl, rfl⟩)
  · rcases runOp_block hop with hp | ⟨_, rfl⟩
    · exact .inl (PollsTo.of_sameBlock (s := s.popOp) ⟨rfl, rfl, rfl⟩ hp)
    · exact .inr ⟨rfl, rfl, rfl⟩

/-! ### The invariant at reset -/

theorem inv_of_sameBlock {s t : State} (hb : SameBlock s t) (h : s.Inv) : t.Inv := by
  obtain ⟨hc, hp, hs⟩ := hb
  rw [State.Inv, hc, hp, hs]
  exact h

theorem parserReset_ok (c : Cfg) : (Parser.reset c).ok c = true := by
  rw [ok_awaitSom1 rfl]; simp [Parser.reset]

theorem statusReset_ok (c : Cfg) : (Status.reset c).ok c := by
  simp [Status.ok, Status.reset, entryOk]

/-- A new instance with a well-formed configuration meets the invariant (R155). -/
theorem resetWith_inv {c : Cfg} (h : c.wf) : (State.resetWith c).Inv :=
  ⟨h, parserReset_ok c, statusReset_ok c⟩

/-- Settles O38: a new instance is `State.resetWith`, whose registers are R155's by definition. -/
theorem constructionResetsOrRefuses : Obligations.ConstructionResetsOrRefuses := by
  refine ⟨resetWith_inv (by decide), fun c => ⟨fun hc => ?_, fun hc => if_neg hc⟩⟩
  exact ⟨State.resetWith c, if_pos hc, rfl, resetWith_inv hc,
    rfl, rfl, rfl, rfl, rfl, rfl, rfl, rfl, rfl, rfl, rfl, rfl, rfl⟩

/-! ### The invariant along received bytes -/

/-- A wire track exposed 1-based is a track of R27 (R108). -/
theorem entryOk_exposedTrack (t0 t1 : Byte) : entryOk (some (exposedTrack t0 t1)) = true := by
  have := (le16 t0 t1).isLt
  simp only [entryOk, exposedTrack_toNat, decide_eq_true_eq]; omega

/-- `UpdateVoice` writes a slot with none or with the track it is given, so the entries stay within R27. -/
theorem updateVoice_entriesOk {table : List (Option TrackNo)} {t : TrackNo} (v : Nat) (x : Byte)
    (ht : entryOk (some t) = true) (h : table.all entryOk = true) : (updateVoice table v t x).all entryOk = true := by
  have set_ok : ∀ e, entryOk e = true → (table.set v e).all entryOk = true := fun e he => by
    rw [List.all_eq_true] at h ⊢
    intro e' hmem
    rcases List.mem_or_eq_of_mem_set hmem with hold | rfl
    · exact h e' hold
    · exact he
  unfold updateVoice
  split
  · split
    · exact set_ok none rfl
    · exact h
  · exact set_ok (some t) ht

/-- A response keeps the status model within its bounds (R27, R28, R33). -/
theorem exec_response_statusOk {i : Instr} {s t : State} (hi : i.direction = .response) (hs : s.status.ok s.cfg)
    (h : exec i s = .next t) : t.status.ok s.cfg := by
  obtain ⟨hlen, hent, hver, hplay⟩ := hs
  cases i with
  | rspVersionString p => cases h; exact ⟨hlen, hent, List.length_take_le _ p, hplay⟩
  | rspSystemInfo p =>
    simp only [exec, execRspSystemInfo] at h
    split at h <;> cases h <;> exact ⟨hlen, hent, hver, hplay⟩
  | rspStatus p =>
    cases h
    have hflag : (flagOddStatus p s).status.voice = s.status.voice ∧
        (flagOddStatus p s).status.version = s.status.version := by
      unfold flagOddStatus
      split <;> exact ⟨rfl, rfl⟩
    simp only [Status.ok, record_status, setStatus_status, hflag]
    exact ⟨hlen, hent, hver, List.length_take_le _ _⟩
  | rspTrackReport p =>
    simp only [exec, execRspTrackReport] at h
    split at h
    · split at h
      · cases h; exact ⟨hlen, hent, hver, hplay⟩
      · cases h
        exact ⟨(updateVoice_length ..).trans hlen,
          updateVoice_entriesOk _ _ (entryOk_exposedTrack _ _) hent, hver, hplay⟩
    all_goals cases h; exact ⟨hlen, hent, hver, hplay⟩
  | _ => cases hi

theorem decodeResponse_direction {c : Cfg} {op : Byte} {p : List Byte} {i : Instr}
    (h : decodeResponse c op p = some i) : i.direction = .response := by
  unfold decodeResponse at h
  split_ifs at h <;> cases h <;> rfl

/-- `Dispatch` keeps the status model within its bounds. -/
theorem dispatch_statusOk {op : Byte} {p : List Byte} {s t : State} (hs : s.status.ok s.cfg)
    (h : dispatch op p s = .next t) : t.status.ok s.cfg := by
  unfold dispatch at h
  split at h
  next i hi => exact exec_response_statusOk (decodeResponse_direction hi) hs h
  next => cases h; exact hs

/-- A payload byte keeps R26: it is the one-byte case of accumulation (R95). -/
theorem stepAccum_ok {b : Byte} {s : State} (hm : s.cfg.maxLen ≤ 255) (hok : s.parser.ok s.cfg = true)
    (hst : s.parser.st = .accumulatingPayload) : (stepAccum b s).parser.ok s.cfg = true := by
  obtain ⟨_, _, hmin, _, hoff, hlast⟩ := (ok_accumulating hst).mp hok
  have hroom : s.parser.off.toNat + [b].length ≤ s.parser.len.toNat - 1 := by
    simp only [List.length_singleton, minLen] at *; omega
  obtain ⟨m, hpoll, _, hmok, _⟩ := pollBytes_accumulate [b] s hm hok hst hroom
  have hone : rxStep b s = .next (stepAccum b s) := by simp [rxStep, hok, hst]
  rw [pollBytes_singleton, hone] at hpoll
  cases hpoll
  exact hmok

/-- A drop leaves the parser at rest and the status model as it was (R97). -/
theorem raiseMalformed_inv {s : State} (cause : Malformation) (h : s.Inv) : (raiseMalformed cause s).Inv := by
  obtain ⟨hwf, hok, hstat⟩ := h
  exact ⟨hwf, ok_resynced (ok_buf hok).2, hstat⟩

/-- An `RxStep` keeps the invariant: every row of R90 lands within R26, and only a dispatch writes the status model. -/
theorem rxStep_keeps_inv {b : Byte} {s t : State} (h : s.Inv) (hstep : rxStep b s = .next t) : t.Inv := by
  obtain ⟨hwf, hok, hstat⟩ := h
  obtain ⟨hready, hbuf⟩ := ok_buf hok
  rcases rxStep_cases b s with ⟨_, e⟩ | ⟨_, hrow⟩
  · rw [e] at hstep; cases hstep
  rcases hrow with ⟨hst, _, e⟩ | ⟨_, _, e⟩ | ⟨hst, _, e⟩ | ⟨_, _, e⟩ | ⟨_, ⟨hmin, hmax⟩, e⟩ | ⟨_, _, e⟩ |
      ⟨hst, e⟩ | ⟨_, _, _, _, _, _, _, hd, e⟩ | ⟨_, _, e⟩ <;> rw [e] at hstep <;> cases hstep
  · obtain ⟨_, _, _, hlen⟩ := (ok_awaitSom1 hst).mp hok
    exact ⟨hwf, (ok_awaitSom2 rfl).mpr ⟨hready, hbuf, rfl, hlen⟩, hstat⟩
  · exact ⟨hwf, hok, hstat⟩
  · obtain ⟨_, _, _, hlen⟩ := (ok_awaitSom2 hst).mp hok
    exact ⟨hwf, (ok_awaitLen rfl).mpr ⟨hready, hbuf, rfl, hlen⟩, hstat⟩
  · exact raiseMalformed_inv _ ⟨hwf, hok, hstat⟩
  · have hroom : 3 ≤ b.toNat - 2 := by simp only [minLen] at hmin; omega
    exact ⟨hwf, (ok_accumulating rfl).mpr ⟨hready, hbuf, hmin, hmax, le_rfl, hroom⟩, hstat⟩
  · exact raiseMalformed_inv _ ⟨hwf, hok, hstat⟩
  · exact ⟨hwf, stepAccum_ok hwf.2.1 hok hst, hstat⟩
  · have hstat' := dispatch_statusOk (s := markReady s) hstat hd
    exact ⟨hwf, ok_resynced hbuf, hstat'⟩
  · exact raiseMalformed_inv _ ⟨hwf, hok, hstat⟩

theorem pollBytes_keeps_inv (bs : List Byte) : ∀ {s t : State}, s.Inv → pollBytes bs s = .next t → t.Inv := by
  induction bs with
  | nil => intro s t h hpoll; cases hpoll; exact h
  | cons b bs ih =>
    intro s t h hpoll
    rw [pollBytes_cons, andThen_eq_next] at hpoll
    obtain ⟨u, hstep, hrest⟩ := hpoll
    exact ih (rxStep_keeps_inv h hstep) hrest

/-- Settles O40: a step writes of the block what some polled bytes write, or the reset values, and both keep the
invariant. -/
theorem everyStepKeepsTheInvariant : Obligations.EveryStepKeepsTheInvariant := by
  intro s t h hstep
  rcases step_block hstep with ⟨bs, m, hpoll, hblock⟩ | hreset
  · exact inv_of_sameBlock hblock (pollBytes_keeps_inv bs h hpoll)
  · have hnew : SameBlock (State.resetWith s.cfg) (resetRegisters s) := ⟨rfl, rfl, rfl⟩
    exact inv_of_sameBlock (sameBlock_trans hnew hreset) (resetWith_inv h.1)

/-! ### Outputs -/

/-- What `t` has sent, recorded and returned starts with what `s` had (R13, R14, R51). -/
structure OutputsExtend (s t : State) : Prop where
  tx : s.env.tx <+: t.env.tx
  trace : s.env.trace <+: t.env.trace
  replies : s.env.replies <+: t.env.replies

theorem OutputsExtend.refl (s : State) : OutputsExtend s s := ⟨List.prefix_rfl, List.prefix_rfl, List.prefix_rfl⟩

theorem OutputsExtend.trans {s t u : State} (h : OutputsExtend s t) (h' : OutputsExtend t u) : OutputsExtend s u :=
  ⟨h.tx.trans h'.tx, h.trace.trans h'.trace, h.replies.trans h'.replies⟩

theorem answer_extends (r : Reply) (s : State) : OutputsExtend s (s.answer r) :=
  ⟨List.prefix_rfl, List.prefix_rfl, List.prefix_append ..⟩

theorem finishQuery_extends (k : QueryKind) (r : QueryResult) (s : State) : OutputsExtend s (finishQuery k r s) :=
  ⟨List.prefix_rfl, List.prefix_append .., List.prefix_append ..⟩

theorem sendFrame_extends (op : Byte) (p : List Byte) (s : State) : OutputsExtend s (sendFrame op p s).2 := by
  rcases sendFrame_cases op p s with ⟨_, e⟩ | ⟨_, _, e⟩ | ⟨_, n, _, e⟩ <;> rw [e]
  · exact .refl s
  · exact ⟨List.prefix_append .., List.prefix_append .., List.prefix_rfl⟩
  · exact ⟨List.prefix_append .., List.prefix_append .., List.prefix_rfl⟩

theorem sendAll_extends (fs : List (Byte × List Byte)) (s : State) : OutputsExtend s (sendAll fs s).2 := by
  induction fs generalizing s with
  | nil => exact .refl s
  | cons f rest ih =>
    obtain ⟨op, p⟩ := f
    have hf := sendFrame_extends op p s
    unfold sendAll
    split
    next t e => rw [e] at hf; exact hf.trans (ih t)
    next r t _ e => rw [e] at hf; exact hf

theorem exec_command_extends {i : Instr} {s t : State} (hi : i.direction = .command) (h : exec i s = .next t) :
    OutputsExtend s t := by
  rw [exec_command hi, sendCommand] at h
  cases h
  exact (sendFrame_extends ..).trans (answer_extends ..)

theorem pollBytes_extends {bs : List Byte} {s t : State} (h : pollBytes bs s = .next t) : OutputsExtend s t := by
  obtain ⟨_, evs, e⟩ := pollBytes_frame bs h
  constructor <;> simp [e]

/-- A poll's emptying of the transport is no output. -/
theorem pollTransport_extends {s t : State} (h : pollTransport s = .next t) : OutputsExtend s t := by
  obtain ⟨htx, htrace, hreplies⟩ := pollBytes_extends h
  exact ⟨htx, htrace, hreplies⟩

/-- A turn ends the query with some result, or the wait goes on (R134). -/
theorem endTurn_eq_next {k : QueryKind} {elapsed : Bool} {goOn : State → Host.Outcome State Fault Refusal}
    {s t : State} (h : endTurn k elapsed goOn s = .next t) : (∃ r, t = finishQuery k r s) ∨ goOn s = .next t := by
  unfold endTurn at h
  split at h
  · cases h; exact .inl ⟨_, rfl⟩
  · split at h
    · cases h; exact .inl ⟨_, rfl⟩
    · exact .inr h

theorem queryLoop_extends (k : QueryKind) (turns : List WaitTurn) : ∀ {s t : State},
    queryLoop k turns s = .next t → OutputsExtend s t := by
  induction turns with
  | nil =>
    intro s t h
    rw [queryLoop, andThen_eq_next] at h
    obtain ⟨m, hpoll, hfin⟩ := h
    cases hfin
    exact (pollTransport_extends hpoll).trans (finishQuery_extends ..)
  | cons turn rest ih =>
    intro s t h
    rw [queryLoop, andThen_eq_next] at h
    obtain ⟨m, hpoll, hend⟩ := h
    have hbegin : OutputsExtend s (beginTurn turn rest s) := ⟨List.prefix_rfl, List.prefix_rfl, List.prefix_rfl⟩
    have hlate : OutputsExtend m (lateArrivals turn m) := ⟨List.prefix_rfl, List.prefix_rfl, List.prefix_rfl⟩
    have hturn := (hbegin.trans (pollTransport_extends hpoll)).trans hlate
    rcases endTurn_eq_next hend with ⟨r, rfl⟩ | hgo
    · exact hturn.trans (finishQuery_extends ..)
    · exact hturn.trans (ih hgo)

theorem query_extends {k : QueryKind} {s t : State} (h : query k s = .next t) : OutputsExtend s t := by
  have hsend := sendFrame_extends (requestOpcode s.cfg k) [] s
  unfold query at h
  split at h
  next u e => rw [e] at hsend; exact hsend.trans (queryLoop_extends k _ h)
  next r u _ e => rw [e] at hsend; cases h; exact hsend.trans (answer_extends ..)

theorem runOp_extends {op : HostOp} {s t : State} (h : runOp op s = .next t) : OutputsExtend s t := by
  cases op with
  | rxStep b => exact pollBytes_extends ((pollBytes_singleton b s).trans h)
  | poll => exact pollTransport_extends h
  | issue i =>
    obtain ⟨hi, he⟩ := issueCommand_eq_next.mp h
    exact exec_command_extends hi he
  | named n => exact exec_command_extends (expand_direction s.cfg n) h
  | crossfade a b g m => cases h; exact (sendAll_extends ..).trans (answer_extends ..)
  | query k => exact query_extends h
  | read a => cases h; exact answer_extends _ s
  | encode o p => cases h; exact answer_extends _ s
  | validate r => cases h; exact answer_extends _ s
  | receive bs => cases h; exact ⟨List.prefix_rfl, List.prefix_rfl, List.prefix_rfl⟩
  | reset => cases h; exact ⟨List.prefix_rfl, List.prefix_rfl, List.prefix_rfl⟩
  | openTransport l => cases h; exact ⟨List.prefix_rfl, List.prefix_rfl, List.prefix_rfl⟩
  | discardBuffered => cases h; exact ⟨List.prefix_rfl, List.prefix_rfl, List.prefix_rfl⟩

theorem step_extends {s t : State} (h : step s = .next t) : OutputsExtend s t := by
  rcases step_eq_next h with ⟨_, rfl⟩ | ⟨op, rest, _, hop⟩
  · exact .refl t
  · obtain ⟨htx, htrace, hreplies⟩ := runOp_extends hop
    exact ⟨htx, htrace, hreplies⟩

/-- Settles O46: each operation extends the three outputs, and a step is one operation or none. -/
theorem outputsOnlyGrow : Obligations.OutputsOnlyGrow := by
  intro s t h
  obtain ⟨⟨bytes, htx⟩, ⟨evs, htrace⟩, ⟨rs, hreplies⟩⟩ := step_extends h
  exact ⟨⟨bytes, htx.symm⟩, ⟨evs, htrace.symm⟩, ⟨rs, hreplies.symm⟩⟩

end Sys2Proof.Machine

/-! PROOFS of the family 10_state: who may write a register, what stays set until a reset, and what the accessors read. -/

namespace Sys2Proof.Machine

/-! ### The status model along received bytes -/

/-- An `RxStep` leaves the status model as it was, or it dispatches the buffered frame at the EOM byte (R36, R96). -/
theorem rxStep_status {b : Byte} {s t : State} (h : rxStep b s = .next t) :
    t.status = s.status ∨ (s.parser.st = .awaitEom ∧ b = s.cfg.eom ∧ ∃ op p u, s.parser.body = op :: p ∧
      dispatch op p (markReady s) = .next u ∧ t.status = u.status) := by
  rcases rxStep_cases b s with ⟨_, e⟩ | ⟨_, hrow⟩
  · rw [e] at h; cases h
  rcases hrow with ⟨_, _, e⟩ | ⟨_, _, e⟩ | ⟨_, _, e⟩ | ⟨_, _, e⟩ | ⟨_, _, e⟩ | ⟨_, _, e⟩ | ⟨_, e⟩ |
      ⟨hst, hb, op, p, st, evs, hbody, hd, e⟩ | ⟨_, _, e⟩ <;> rw [e] at h <;> cases h
  · exact .inl rfl
  · exact .inl rfl
  · exact .inl rfl
  · exact .inl rfl
  · exact .inl rfl
  · exact .inl rfl
  · exact .inl rfl
  · exact .inr ⟨hst, hb, op, p, _, hbody, hd, rfl⟩
  · exact .inl rfl

theorem decodeResponse_unknown {c : Cfg} {op : Byte} (p : List Byte) (h : op ∉ c.responseOpcodes) :
    decodeResponse c op p = none := by
  simp only [Cfg.responseOpcodes, List.mem_cons, List.not_mem_nil, or_false, not_or] at h
  obtain ⟨hversion, hinfo, hstatus, hreport⟩ := h
  rw [decodeResponse, if_neg hversion, if_neg hinfo, if_neg hreport, if_neg hstatus]

/-- Only a response opcode's dispatch writes the status model (R111). -/
theorem dispatch_status_of_unknown {op : Byte} {p : List Byte} {s t : State} (hop : op ∉ s.cfg.responseOpcodes)
    (h : dispatch op p s = .next t) : t.status = s.status := by
  rw [dispatch, decodeResponse_unknown p hop] at h
  cases h
  rfl

/-- A status register changes only by a response frame in the buffer and its EOM byte (R36). -/
theorem rxStep_status_changed {b : Byte} {s t : State} (h : rxStep b s = .next t) (hne : t.status ≠ s.status) :
    s.parser.st = .awaitEom ∧ b = s.cfg.eom ∧ ∃ op p, s.parser.body = op :: p ∧ op ∈ s.cfg.responseOpcodes := by
  rcases rxStep_status h with hsame | ⟨hst, hb, op, p, u, hbody, hd, hu⟩
  · exact absurd hsame hne
  · refine ⟨hst, hb, op, p, hbody, ?_⟩
    by_contra hop
    exact hne (hu.trans (dispatch_status_of_unknown (s := markReady s) hop hd))

/-! ### Write access, operation by operation -/

/-- Of the operations that give the parser no byte, only the reset input writes the block (R36). -/
theorem runOp_sameBlock {op : HostOp} {s t : State} (hfeeds : op.feedsParser = false) (hreset : op ≠ .reset)
    (h : runOp op s = .next t) : SameBlock s t := by
  cases op with
  | rxStep b => cases hfeeds
  | poll => cases hfeeds
  | query k => cases hfeeds
  | reset => exact absurd rfl hreset
  | issue i =>
    obtain ⟨hi, he⟩ := issueCommand_eq_next.mp h
    exact exec_command_sameBlock hi he
  | named n => exact exec_command_sameBlock (expand_direction s.cfg n) h
  | crossfade a b g m => exact crossfade_sameBlock h
  | receive bs => cases h; exact ⟨rfl, rfl, rfl⟩
  | read a => cases h; exact ⟨rfl, rfl, rfl⟩
  | encode o p => cases h; exact ⟨rfl, rfl, rfl⟩
  | validate r => cases h; exact ⟨rfl, rfl, rfl⟩
  | openTransport l => cases h; exact ⟨rfl, rfl, rfl⟩
  | discardBuffered => cases h; exact ⟨rfl, rfl, rfl⟩

/-- A poll from another state of the same block leads to the same block, and takes nothing from the transport. -/
theorem pollBytes_from_sameBlock {bs : List Byte} {s s' t : State} (hb : SameBlock s s')
    (h : pollBytes bs s' = .next t) : ∃ m, pollBytes bs s = .next m ∧ SameBlock m t ∧ t.env.rx = s'.env.rx := by
  obtain ⟨m, hm, htm⟩ := pollBytes_sameBlock (sameBlock_symm hb) h
  obtain ⟨_, evs, he⟩ := pollBytes_frame bs h
  exact ⟨m, hm, sameBlock_symm htm, by rw [he]⟩

/-- A query whose request is not sent polls nothing (R133). -/
theorem query_unsent {k : QueryKind} {s t : State} (hsend : (sendFrame (requestOpcode s.cfg k) [] s).1 ≠ .ok)
    (h : query k s = .next t) :
    SameBlock s t ∧ t.env.rx = s.env.rx ∧ t.env.waitTurns = s.env.waitTurns := by
  obtain ⟨hblock, hrx, _, _, hturns, _⟩ := sendFrame_frame (requestOpcode s.cfg k) [] s
  unfold query at h
  split at h
  next u e => rw [e] at hsend; exact absurd rfl hsend
  next r u _ e => rw [e] at hblock hrx hturns; cases h; exact ⟨hblock, hrx, hturns⟩

/-- Which bytes a wait polled is read off the transport's bytes and the script where it began. -/
theorem PolledByWait.of_env_eq {s s' t : State} {bs : List Byte} (hrx : s'.env.rx = s.env.rx)
    (hturns : s'.env.waitTurns = s.env.waitTurns) (h : PolledByWait s' t bs) : PolledByWait s t bs := by
  rw [PolledByWait, hrx, hturns] at h
  exact h

/-- A query whose request is sent writes of the block what the bytes its wait polled write (R36, R134). -/
theorem query_sent {k : QueryKind} {s t : State} (hsend : (sendFrame (requestOpcode s.cfg k) [] s).1 = .ok)
    (h : query k s = .next t) : ∃ bs m, PolledByWait s t bs ∧ pollBytes bs s = .next m ∧ SameBlock m t := by
  obtain ⟨hblock, hrx, _, _, hturns, _⟩ := sendFrame_frame (requestOpcode s.cfg k) [] s
  unfold query at h
  split at h
  next u e =>
    rw [e] at hblock hrx hturns
    obtain ⟨bs, m, hpolled, hm, hmt⟩ := queryLoop_polled k _ rfl h
    obtain ⟨m', hm', hmm', _⟩ := pollBytes_from_sameBlock hblock hm
    exact ⟨bs, m', hpolled.of_env_eq hrx hturns, hm', sameBlock_trans hmm' hmt⟩
  next r u hne e => rw [e] at hsend; exact absurd hsend hne

/-- Settles O44: each operation writes the block as its own lemma says, from the state with the operation taken off the
queue, which is of the same block; and a status register changes only at an EOM byte. -/
theorem writeAccessIsComplete : Obligations.WriteAccessIsComplete := by
  refine ⟨fun s t op rest hops hstep => ?_, fun s t b h hne => rxStep_status_changed h hne⟩
  have hpop : SameBlock s s.popOp := ⟨rfl, rfl, rfl⟩
  rw [step_of_ops hops] at hstep
  refine ⟨fun hfeeds hreset => sameBlock_trans hpop (runOp_sameBlock hfeeds hreset hstep), ?_, ?_, ?_⟩
  · rintro b rfl
    obtain ⟨m, hm, hmt, hrx⟩ := pollBytes_from_sameBlock hpop ((pollBytes_singleton b s.popOp).trans hstep)
    exact ⟨m, (pollBytes_singleton b s).symm.trans hm, hmt, hrx⟩
  · rintro rfl
    exact pollBytes_from_sameBlock (s' := { s.popOp with env := { s.popOp.env with rx := [] } }) ⟨rfl, rfl, rfl⟩ hstep
  · rintro k rfl
    have hsame : (sendFrame (requestOpcode s.cfg k) [] s.popOp).1 = (sendFrame (requestOpcode s.cfg k) [] s).1 := by
      rw [sendFrame_popOp]
    refine ⟨fun hsend => query_unsent (s := s.popOp) (hsame.trans_ne hsend) hstep, fun hsend => ?_⟩
    obtain ⟨bs, m, hpolled, hm, hmt⟩ := query_sent (s := s.popOp) (hsame.trans hsend) hstep
    obtain ⟨m', hm', hmm', _⟩ := pollBytes_from_sameBlock hpop hm
    exact ⟨bs, m', hpolled.of_env_eq rfl rfl, hm', sameBlock_trans hmm' hmt⟩

/-! ### The configuration -/

/-- Settles O43: neither polled bytes nor the reset values touch the configuration. -/
theorem configurationIsNeverWritten : Obligations.ConfigurationIsNeverWritten := by
  intro s t h
  rcases step_block h with ⟨bs, m, hpoll, hcfg, _⟩ | ⟨hcfg, _⟩
  · exact hcfg.trans (pollBytes_frame bs hpoll).1
  · exact hcfg

/-! ### The sticky flags -/

/-- Each received flag and `len_err` that is 1 in `x` is 1 in `y` (R29, R32, R34, R35). -/
structure FlagsKept (x y : Status) : Prop where
  versionRcvd : x.versionRcvd = true → y.versionRcvd = true
  sysinfoRcvd : x.sysinfoRcvd = true → y.sysinfoRcvd = true
  statusRcvd : x.statusRcvd = true → y.statusRcvd = true
  lenErr : x.lenErr = true → y.lenErr = true

theorem FlagsKept.refl (x : Status) : FlagsKept x x := ⟨id, id, id, id⟩

theorem FlagsKept.trans {x y z : Status} (h : FlagsKept x y) (h' : FlagsKept y z) : FlagsKept x z :=
  ⟨h'.versionRcvd ∘ h.versionRcvd, h'.sysinfoRcvd ∘ h.sysinfoRcvd, h'.statusRcvd ∘ h.statusRcvd, h'.lenErr ∘ h.lenErr⟩

theorem flagLenErr_flagsKept (x : Status) : FlagsKept x x.flagLenErr := ⟨id, id, id, fun _ => rfl⟩

theorem flagOddStatus_flagsKept (p : List Byte) (s : State) : FlagsKept s.status (flagOddStatus p s).status := by
  unfold flagOddStatus
  split
  · exact flagLenErr_flagsKept s.status
  · exact .refl s.status

/-- A response sets its own flag or `len_err`, and clears none (R106 to R110). -/
theorem exec_response_flagsKept {i : Instr} {s t : State} (hi : i.direction = .response) (h : exec i s = .next t) :
    FlagsKept s.status t.status := by
  cases i with
  | rspVersionString p => cases h; exact ⟨fun _ => rfl, id, id, id⟩
  | rspSystemInfo p =>
    simp only [exec, execRspSystemInfo] at h
    split at h <;> cases h
    · exact ⟨id, fun _ => rfl, id, id⟩
    all_goals exact flagLenErr_flagsKept s.status
  | rspStatus p =>
    cases h
    exact (flagOddStatus_flagsKept p s).trans ⟨id, id, fun _ => rfl, id⟩
  | rspTrackReport p =>
    simp only [exec, execRspTrackReport] at h
    split at h
    · split at h <;> cases h <;> exact ⟨id, id, id, id⟩
    all_goals cases h; exact flagLenErr_flagsKept s.status
  | _ => cases hi

theorem dispatch_flagsKept {op : Byte} {p : List Byte} {s t : State} (h : dispatch op p s = .next t) :
    FlagsKept s.status t.status := by
  unfold dispatch at h
  split at h
  next i hi => exact exec_response_flagsKept (decodeResponse_direction hi) h
  next => cases h; exact .refl s.status

theorem rxStep_flagsKept {b : Byte} {s t : State} (h : rxStep b s = .next t) : FlagsKept s.status t.status := by
  rcases rxStep_status h with hsame | ⟨_, _, op, p, u, _, hd, hu⟩
  · exact hsame ▸ .refl s.status
  · exact hu ▸ dispatch_flagsKept (s := markReady s) hd

theorem pollBytes_flagsKept (bs : List Byte) : ∀ {s t : State}, pollBytes bs s = .next t →
    FlagsKept s.status t.status := by
  induction bs with
  | nil => intro s t h; cases h; exact .refl s.status
  | cons b bs ih =>
    intro s t h
    rw [pollBytes_cons, andThen_eq_next] at h
    obtain ⟨u, hstep, hrest⟩ := h
    exact (rxStep_flagsKept hstep).trans (ih hrest)

/-- Settles O45: an operation other than the reset input writes what some polled bytes write, and these clear no flag. -/
theorem flagsAreStickyUntilReset : Obligations.FlagsAreStickyUntilReset := by
  intro s t op rest hops hreset hstep
  rw [step_of_ops hops] at hstep
  have hkept : FlagsKept s.status t.status := by
    rcases runOp_block hstep with ⟨bs, m, hpoll, _, _, hstatus⟩ | ⟨hop, _⟩
    · exact hstatus ▸ pollBytes_flagsKept bs (s := s.popOp) hpoll
    · exact absurd hop hreset
  exact ⟨hkept.versionRcvd, hkept.sysinfoRcvd, hkept.statusRcvd, hkept.lenErr⟩

/-! ### The accessors -/

/-- A voice number in range names a slot of the table (R37). -/
theorem voiceEntry_of_lt {s : State} {v : Nat} (hlen : s.status.voice.length = s.cfg.numVoices)
    (hv : v < s.cfg.numVoices) : s.status.voice[v]? = some (voiceEntry s v) := by
  have hslot : v < s.status.voice.length := by rw [hlen]; exact hv
  rw [voiceEntry, if_pos hv, List.getD_eq_getElem _ _ hslot, List.getElem?_eq_getElem hslot]

theorem voiceEntry_of_le {s : State} {v : Nat} (hv : s.cfg.numVoices ≤ v) : voiceEntry s v = none :=
  if_neg (Nat.not_lt.mpr hv)

/-- `isTrackPlaying(t)` says that some slot of the voice table holds `t` (R38). -/
theorem isTrackPlaying_iff {s : State} {t : Nat} (hlen : s.status.voice.length = s.cfg.numVoices) :
    isTrackPlaying s t = true ↔ ∃ (v : Nat) (e : TrackNo), s.status.voice[v]? = some (some e) ∧ e.toNat = t := by
  simp only [isTrackPlaying, List.any_eq_true, List.mem_range, beq_iff_eq, Option.map_eq_some_iff]
  constructor
  · rintro ⟨v, hv, e, he, ht⟩
    exact ⟨v, e, he ▸ voiceEntry_of_lt hlen hv, ht⟩
  · rintro ⟨v, e, he, ht⟩
    have hv : v < s.cfg.numVoices := hlen ▸ (List.getElem?_eq_some_iff.mp he).1
    have hentry : voiceEntry s v = some e := Option.some.inj ((voiceEntry_of_lt hlen hv).symm.trans he)
    exact ⟨v, hv, e, hentry, ht⟩

/-- Settles O50: the value returned is `readAccessor`, one equation per accessor; the voice table's two accessors are
`voiceEntry` and `isTrackPlaying`. -/
theorem accessorsReadTheStatusModel : Obligations.AccessorsReadTheStatusModel := by
  rintro s a ⟨hlen, _⟩
  refine ⟨readAccessor s a, rfl, ?_, ?_, ?_, ?_, ?_, ?_, ?_⟩
  · rintro rfl; rfl
  · rintro rfl; rfl
  · rintro rfl; rfl
  · rintro rfl; rfl
  · rintro rfl; rfl
  · rintro v rfl
    exact ⟨fun hv => ⟨_, voiceEntry_of_lt hlen hv, rfl⟩, fun hv => congrArg Reading.voice (voiceEntry_of_le hv)⟩
  · rintro t rfl
    exact ⟨isTrackPlaying s t, rfl, isTrackPlaying_iff hlen⟩

/-! ### The stop outside the parser invariant -/

/-- Settles O19: every transition of `RxStep` is guarded by R26. -/
theorem rxStepOutsideTheInvariantIsStuck : Obligations.RxStepOutsideTheInvariantIsStuck := by
  intro s b hout
  rcases rxStep_cases b s with ⟨_, e⟩ | ⟨hok, _⟩
  · exact e
  · rw [hout] at hok; cases hok

/-! ### Several instances -/

/-- A fleet's step leaves the fleet as it was, or replaces the entry of the instance that stepped (R42). -/
theorem stepInstance_eq_next {k : Nat} {fleet fleet' : List State} (h : stepInstance k fleet = .next fleet') :
    fleet' = fleet ∨ ∃ s t, fleet[k]? = some s ∧ step s = .next t ∧ fleet' = fleet.set k t := by
  unfold stepInstance at h
  split at h
  next => cases h; exact .inl rfl
  next s hs =>
    split at h
    next t ht => cases h; exact .inr ⟨s, t, hs, ht, rfl⟩
    next => cases h
    next => cases h

/-- Settles O47: a step of instance `k` writes no entry but number `k`. -/
theorem instancesShareNoState : Obligations.InstancesShareNoState := by
  intro fleet fleet' k j h hjk
  rcases stepInstance_eq_next h with rfl | ⟨s, t, _, _, rfl⟩
  · rfl
  · exact List.getElem?_set_ne hjk.symm

end Sys2Proof.Machine

/-! PROOFS of the family 30_encoding: what `Validate` accepts, and that the decoder and the encoder are inverse. The decoder is
`Validate`, then the row of the opcode; each of the two parts has its own inversion, used in both directions. -/

namespace Sys2Proof.Machine

/-! ### `Validate` accepts exactly the frames of R60 -/

/-- A frame whose LEN fits in its byte passes every check of R84. -/
theorem validate_frame {c : Cfg} (op : Byte) {p : List Byte} (hmax : c.maxLen ≤ 255) (hfits : fitsPayload c p) :
    validate c (frame c op p) = .ok (op, p) := by
  have hlen : (BitVec.ofNat 8 (5 + p.length)).toNat = p.length + 5 := by
    rw [BitVec.toNat_ofNat]; omega
  have hmaxLen : p.length + 5 ≤ c.maxLen := by omega
  simp [validate, frame, minLen, hlen, hmaxLen]

/-- What every check of R84 has established of a list that `Validate` accepts. -/
theorem checks_of_validate {c : Cfg} {r : List Byte} {op : Byte} {p : List Byte} (h : validate c r = .ok (op, p)) :
    ∃ l t, r = c.som1 :: c.som2 :: l :: t ∧ minLen ≤ l.toNat ∧ l.toNat ≤ c.maxLen ∧ r.length = l.toNat ∧
      r[l.toNat - 1]? = some c.eom ∧ op = r.getD 3 0 ∧ p = (r.take (l.toNat - 1)).drop 4 := by
  unfold validate at h
  split at h
  · cases h
  split_ifs at h with h0
  split at h
  · cases h
  split_ifs at h with h1
  split at h
  · cases h
  split_ifs at h with hl hshort heom hlong
  cases h
  simp only [not_or, not_lt, ne_eq, not_not] at h0 h1 hl hshort heom hlong
  subst h0 h1
  exact ⟨_, _, rfl, hl.1, hl.2, le_antisymm hlong hshort, heom, rfl, rfl⟩

/-- A list that `Validate` accepts is the frame of the opcode and payload it returns. -/
theorem eq_frame_of_validate {c : Cfg} {r : List Byte} {op : Byte} {p : List Byte} (h : validate c r = .ok (op, p)) :
    fitsPayload c p ∧ r = frame c op p := by
  obtain ⟨l, t, rfl, hmin, hmax, hlen, heom, hop, hp⟩ := checks_of_validate h
  obtain ⟨n, hn⟩ : ∃ n, l.toNat = n + 5 := ⟨l.toNat - 5, by simp only [minLen] at hmin; omega⟩
  obtain ⟨o, q, rfl⟩ : ∃ o q, t = o :: q := by
    cases t with
    | nil => simp only [List.length_cons, List.length_nil] at hlen; omega
    | cons o q => exact ⟨o, q, rfl⟩
  have hq : q.length = n + 1 := by simp only [List.length_cons] at hlen; omega
  have hp' : p = q.dropLast := by simp [hp, hn, List.dropLast_eq_take, hq]
  have hlast : c.eom ∈ q.getLast? := by simpa [hn, List.getLast?_eq_getElem?, hq] using heom
  have hpayload : p ++ [c.eom] = q := hp' ▸ List.dropLast_append_getLast? _ hlast
  have hpn : 5 + p.length = l.toNat := by rw [hp', List.length_dropLast]; omega
  have hlenByte : BitVec.ofNat 8 (5 + p.length) = l := by rw [hpn, BitVec.ofNat_toNat, BitVec.setWidth_eq]
  have hopcode : op = o := hop
  exact ⟨hpn.trans_le hmax, by simp [frame, hlenByte, hopcode, hpayload]⟩

/-- Settles O5: each direction is one lemma, the frame's checks and the frame read off them. -/
theorem validateAcceptsExactlyTheEncodedFrames : Obligations.ValidateAcceptsExactlyTheEncodedFrames := by
  intro c r op p hwf
  refine ⟨eq_frame_of_validate, ?_⟩
  rintro ⟨hfits, rfl⟩
  exact validate_frame op hwf.2.1 hfits

/-! ### Operands: each field is read back as its narrowing, and what is read fits the field -/

theorem readU16_u16 (v : Int) : readU16 (lo8 (u16 v)) (hi8 (u16 v)) = (u16 v).toNat :=
  congrArg Nat.cast (le16_lo8_hi8_toNat (u16 v))

theorem fitsU8_readU8 (b : Byte) : fitsU8 (readU8 b) := by
  have := b.isLt
  simp only [fitsU8, readU8]; omega

theorem fitsU16_readU16 (b0 b1 : Byte) : fitsU16 (readU16 b0 b1) := by
  have := (le16 b0 b1).isLt
  simp only [fitsU16, readU16]; omega

theorem fits_readBool8 (b : Byte) : (readBool8 b).fits = true := by
  unfold readBool8
  split_ifs with h0 h1
  · rfl
  · rfl
  · have hlt := b.isLt
    have h0' : b.toNat ≠ 0 := fun e => h0 (BitVec.eq_of_toNat_eq e)
    have h1' : b.toNat ≠ 1 := fun e => h1 (BitVec.eq_of_toNat_eq e)
    simp only [Bool8.fits, decide_eq_true_eq]; omega

/-- A `bool8` operand in the form it is read back in is its own narrowing (R63; log entry 9). -/
theorem narrowed_of_fits {v : Bool8} (h : v.fits = true) : v.narrowed = v := by
  rcases v with (_ | _) | v
  · rfl
  · rfl
  · simp only [Bool8.fits, decide_eq_true_eq] at h
    have hv : ((u8 v).toNat : Int) = v := by rw [u8_toNat]; omega
    have htwo : 2 ≤ (u8 v).toNat := by omega
    have h0 : u8 v ≠ 0 := fun e => absurd (e ▸ htwo) (by decide)
    have h1 : u8 v ≠ 1 := fun e => absurd (e ▸ htwo) (by decide)
    rw [Bool8.narrowed, readBool8, Bool8.byte, if_neg h0, if_neg h1, hv]

/-- A well-formed instruction is its own narrowing (R63). -/
theorem narrowed_of_wf {c : Cfg} {i : Instr} (h : i.wf c = true) : i.narrowed = i := by
  cases i <;> simp only [Instr.wf, Bool.and_eq_true, decide_eq_true_eq] at h <;>
    simp [Instr.narrowed, u8_toNat, u16_toNat, Int.emod_eq_of_lt, narrowed_of_fits, h]

/-! ### The row of an opcode

A configuration's opcodes are distinct within a direction (R6), so no other row's test comes before the right one; the
decoders test the rows in another order than `Cfg.commandOpcodes` lists them, so each inequality is needed both ways round. -/

theorem decodeCommand_payloadOf {c : Cfg} {i : Instr} (hops : c.commandOpcodes.Nodup) (hi : i.direction = .command) :
    decodeCommand c (opcodeOf c i) (payloadOf i) = .ok i.narrowed := by
  have hsymm := List.nodup_reverse.mpr hops
  simp only [Cfg.commandOpcodes, List.nodup_cons, List.mem_cons, List.not_mem_nil, or_false, not_or, not_false_eq_true,
    List.nodup_nil, and_self, and_true, List.reverse_cons, List.reverse_nil, List.nil_append, List.cons_append] at hops hsymm
  cases i with
  | rspVersionString | rspSystemInfo | rspStatus | rspTrackReport => cases hi
  | _ =>
    simp [decodeCommand, opcodeOf, hops, hsymm, payloadOf, p8, p16, pBool, Instr.narrowed, readU8, readU16_u16,
      Bool8.narrowed]

theorem decodeResponse_payloadOf {c : Cfg} {i : Instr} (hops : c.responseOpcodes.Nodup) (hi : i.direction = .response) :
    decodeResponse c (opcodeOf c i) (payloadOf i) = some i.narrowed := by
  have hsymm := List.nodup_reverse.mpr hops
  simp only [Cfg.responseOpcodes, List.nodup_cons, List.mem_cons, List.not_mem_nil, or_false, not_or, not_false_eq_true,
    List.nodup_nil, and_self, and_true, List.reverse_cons, List.reverse_nil, List.nil_append, List.cons_append] at hops hsymm
  cases i with
  | rspVersionString | rspSystemInfo | rspStatus | rspTrackReport =>
    simp [decodeResponse, opcodeOf, hops, hsymm, payloadOf, Instr.narrowed]
  | _ => cases hi

/-- What the decoder reads as a command is a well-formed one with this opcode and payload: each arm tests its row's opcode
and length, and then each field fits and packs to the bytes it was read from (R65, R74). -/
theorem row_of_decodeCommand {c : Cfg} {op : Byte} {p : List Byte} {i : Instr} (h : decodeCommand c op p = .ok i) :
    i.direction = .command ∧ i.wf c = true ∧ op = opcodeOf c i ∧ p = payloadOf i := by
  unfold decodeCommand at h
  iterate 14
    rw [ite_eq_iff] at h
    obtain ⟨hop, h⟩ | ⟨_, h⟩ := h
    · split at h <;> cases h
      exact ⟨rfl, by simp [Instr.wf, fitsU8_readU8, fitsU16_readU16, fits_readBool8], hop, by simp [payloadOf]⟩
  cases h

/-- What the decoder reads as a response has this opcode and payload, and is well-formed if the payload fits (R67). -/
theorem row_of_decodeResponse {c : Cfg} {op : Byte} {p : List Byte} {i : Instr} (hfits : fitsPayload c p)
    (h : decodeResponse c op p = some i) : i.wf c = true ∧ op = opcodeOf c i ∧ p = payloadOf i := by
  unfold decodeResponse at h
  split_ifs at h with hop hop hop hop <;> cases h <;> exact ⟨decide_eq_true hfits, hop, rfl⟩

/-! ### The decoder and the encoder are inverse -/

/-- The decoder is `Validate`, then the row of the opcode in the given direction (R74). -/
theorem decode_eq_ok {c : Cfg} {d : Direction} {bs : List Byte} {i : Instr} :
    decode c d bs = .ok i ↔ ∃ op p, validate c bs = .ok (op, p) ∧
      (d = .command ∧ decodeCommand c op p = .ok i ∨ d = .response ∧ decodeResponse c op p = some i) := by
  unfold decode
  rcases validate c bs with cause | ⟨op, p⟩
  · simp
  · cases d with
    | command => simp
    | response => cases hi : decodeResponse c op p <;> simp [hi]

/-- A well-formed instruction's payload fits: a command's by the bound of R6 on `MAX_LEN`, a response's by R61. -/
theorem fitsPayload_of_wf {c : Cfg} {i : Instr} (hc : c.wf) (h : i.wf c = true) : fitsPayload c (payloadOf i) := by
  cases hi : i.direction with
  | command =>
    have := payloadOf_command_length hi
    have := hc.1
    simp only [fitsPayload]; omega
  | response =>
    cases i with
    | rspVersionString | rspSystemInfo | rspStatus | rspTrackReport => exact of_decide_eq_true h
    | _ => cases hi

/-- An encoding decodes to the narrowed instruction, whatever the operands (R63, R71). -/
theorem decode_encode {c : Cfg} {i : Instr} (hc : c.wf) (hfits : fitsPayload c (payloadOf i)) :
    decode c i.direction (encode c i) = .ok i.narrowed := by
  obtain ⟨_, hmax, _, _, _, _, _, _, hresponses, hcommands⟩ := hc
  refine decode_eq_ok.mpr ⟨opcodeOf c i, payloadOf i, validate_frame _ hmax hfits, ?_⟩
  cases hi : i.direction with
  | command => exact .inl ⟨rfl, decodeCommand_payloadOf hcommands hi⟩
  | response => exact .inr ⟨rfl, decodeResponse_payloadOf hresponses hi⟩

/-- A byte list that decodes is the encoding of the well-formed instruction it decodes to. -/
theorem eq_encode_of_decode {c : Cfg} {d : Direction} {bs : List Byte} {i : Instr} (h : decode c d bs = .ok i) :
    bs = encode c i ∧ i.direction = d ∧ i.wf c = true := by
  obtain ⟨op, p, hvalid, hrow⟩ := decode_eq_ok.mp h
  obtain ⟨hfits, rfl⟩ := eq_frame_of_validate hvalid
  obtain ⟨rfl, hrow⟩ | ⟨rfl, hrow⟩ := hrow
  · obtain ⟨hdir, hwf, rfl, rfl⟩ := row_of_decodeCommand hrow
    exact ⟨rfl, hdir, hwf⟩
  · have hdir := decodeResponse_direction hrow
    obtain ⟨hwf, rfl, rfl⟩ := row_of_decodeResponse hfits hrow
    exact ⟨rfl, hdir, hwf⟩

/-- Settles O6: an encoding decodes to the narrowed instruction, which for a well-formed one is the instruction itself. -/
theorem decodeOfEncodeIsTheInstruction : Obligations.DecodeOfEncodeIsTheInstruction := by
  intro c i hc hi
  have hnarrowed := decode_encode hc (fitsPayload_of_wf hc hi)
  rwa [narrowed_of_wf hi] at hnarrowed

/-- Settles O7: the frame is read off `Validate`, and the row off the opcode's arm. -/
theorem encodeOfDecodeIsTheFrame : Obligations.EncodeOfDecodeIsTheFrame := by
  intro c d bs i _ h
  obtain ⟨hbs, hdir, hwf⟩ := eq_encode_of_decode h
  exact ⟨hbs.symm, hdir, hwf⟩

/-- Settles O9, a sanity statement: each frame is run through the decoder. -/
theorem exampleFramesDecode : Obligations.ExampleFramesDecode :=
  ⟨by decide, by decide, by decide, by decide, by decide, by decide⟩

/-! ### The command input -/

/-- Settles O35: what decodes as a command is one, so it is placed on the command input and the next step runs it. -/
theorem fetchedCommandIsTheNextStep : Obligations.FetchedCommandIsTheNextStep := by
  intro s nbits w i h
  obtain ⟨_, hi, _⟩ := eq_encode_of_decode h
  have hplaced : s.withFetchWord nbits w = placeCommand i s := by simp only [State.withFetchWord, placeWord, h]
  rw [hplaced]
  exact ⟨_, stepRunsTheIssuedCommand (placeCommand i s) i s.env.ops rfl hi⟩

/-- Settles O42: the command input looks at the row's direction first (R68; assumption 14). -/
theorem responsesAreNotIssued : Obligations.ResponsesAreNotIssued := by
  intro s i rest hops hi
  rw [step_of_ops hops]
  simp [runOp, issueCommand, hi]

end Sys2Proof.Machine

/-! PROOFS of the family 40_frame_codec: narrowing and byte order, `Encode` and `Validate` case by case, the commands' round
trip, and the stream decoder. The two halves of R87 rest on one lemma, what an `RxStep` does to the frame in progress. -/

namespace Sys2Proof.Machine

/-! ### Little-endian fields -/

theorem le16_lo8_hi8 (w : Half) : le16 (lo8 w) (hi8 w) = w := BitVec.eq_of_toNat_eq (le16_lo8_hi8_toNat w)

theorem lo8_le16 (a b : Byte) : lo8 (le16 a b) = a :=
  BitVec.eq_of_toNat_eq (by have := a.isLt; rw [lo8_toNat, le16_toNat]; omega)

theorem hi8_le16 (a b : Byte) : hi8 (le16 a b) = b :=
  BitVec.eq_of_toNat_eq (by have := a.isLt; rw [hi8_toNat, le16_toNat]; omega)

/-- Settles O1: the two bytes are the remainder and the quotient by 256. -/
theorem littleEndianFieldsRoundTrip : Obligations.LittleEndianFieldsRoundTrip :=
  ⟨le16_lo8_hi8, fun a b => ⟨lo8_le16 a b, hi8_le16 a b⟩⟩

/-- An integer of the signed 16-bit range comes back from its field by sign extension (R83). -/
theorem toInt_signExtend_u16 {v : Int} (hlo : -32768 ≤ v) (hhi : v ≤ 32767) : ((u16 v).signExtend 32).toInt = v := by
  rw [BitVec.toInt_signExtend_of_le (by decide), u16, BitVec.toInt_ofInt]
  exact Int.bmod_eq_of_le (by omega) (by omega)

/-- Settles O2: narrowing is the remainder modulo the field's size, and the signed range reads back. -/
theorem narrowingWrapsAndReadsBack : Obligations.NarrowingWrapsAndReadsBack := by
  intro v
  exact ⟨⟨_, _, rfl, le16_lo8_hi8 _⟩, u16_toNat v, u8_toNat v, toInt_signExtend_u16⟩

/-! ### A direct call of `Encode` -/

theorem encodeReply_fits {c : Cfg} {p : List Byte} (op : Byte) (h : 5 + p.length ≤ c.maxLen) :
    encodeReply c op p = .encoded (frame c op p) := by
  rw [encodeReply, encodeFrame_fits op h]

theorem encodeReply_tooLong {c : Cfg} {p : List Byte} (op : Byte) (h : c.maxLen < 5 + p.length) :
    encodeReply c op p = .encodeTooLong := by
  rw [encodeReply, encodeFrame_tooLong op h]

/-- Settles O3: the operation only answers, and the answer turns on the frame's length. -/
theorem encodeReturnsTheFrameOrRefuses : Obligations.EncodeReturnsTheFrameOrRefuses := by
  intro s op p
  refine ⟨fun hfits => ?_, fun hlong => ?_⟩
  · rw [runOp, encodeReply_fits op hfits]; rfl
  · rw [runOp, encodeReply_tooLong op hlong]; rfl

/-! ### `Validate`, check by check -/

theorem exists_cons_of_getElem?_zero {a : Byte} {r : List Byte} (h : r[0]? = some a) : ∃ t, r = a :: t :=
  List.head?_eq_some_iff.mp (List.head?_eq_getElem?.trans h)

theorem validate_badSom1 {c : Cfg} {r : List Byte} (h0 : r[0]? ≠ some c.som1) : validate c r = .error .badSom1 := by
  cases r with
  | nil => rfl
  | cons b0 t => exact if_pos fun e => h0 (congrArg some e)

theorem validate_badSom2 {c : Cfg} {r : List Byte} (h0 : r[0]? = some c.som1) (h1 : r[1]? ≠ some c.som2) :
    validate c r = .error .badSom2 := by
  obtain ⟨t, rfl⟩ := exists_cons_of_getElem?_zero h0
  cases t with
  | nil => simp [validate]
  | cons b1 t =>
    have hb : b1 ≠ c.som2 := fun e => h1 (congrArg some e)
    simp [validate, hb]

theorem exists_eq_markers_cons {c : Cfg} {r : List Byte} (h0 : r[0]? = some c.som1) (h1 : r[1]? = some c.som2) :
    ∃ t, r = c.som1 :: c.som2 :: t := by
  obtain ⟨t, rfl⟩ := exists_cons_of_getElem?_zero h0
  obtain ⟨t, rfl⟩ := exists_cons_of_getElem?_zero (r := t) h1
  exact ⟨t, rfl⟩

theorem validate_noLen {c : Cfg} {r : List Byte} (h0 : r[0]? = some c.som1) (h1 : r[1]? = some c.som2)
    (h2 : r[2]? = none) : validate c r = .error .badLen := by
  obtain ⟨t, rfl⟩ := exists_eq_markers_cons h0 h1
  obtain rfl : t = [] := List.head?_eq_none_iff.mp (List.head?_eq_getElem?.trans h2)
  simp [validate]

/-- With both markers right and a LEN byte there, the checks left are those of LEN, the length and EOM (R84). -/
theorem validate_len {c : Cfg} {r : List Byte} {l : Byte} (h0 : r[0]? = some c.som1) (h1 : r[1]? = some c.som2)
    (h2 : r[2]? = some l) :
    validate c r =
      if l.toNat < 5 ∨ c.maxLen < l.toNat then .error .badLen else
      if r.length < l.toNat then .error .lenMismatch else
      if r[l.toNat - 1]? ≠ some c.eom then .error .badEom else
      if l.toNat < r.length then .error .lenMismatch else
      .ok (r.getD 3 0, (r.take (l.toNat - 1)).drop 4) := by
  obtain ⟨t, rfl⟩ := exists_eq_markers_cons h0 h1
  obtain ⟨t, rfl⟩ := exists_cons_of_getElem?_zero (r := t) h2
  simp [validate, minLen]

/-- Settles O4: the checks of R84 one after another, each made once those before it have passed. -/
theorem validateReportsTheFirstFailingCheck : Obligations.ValidateReportsTheFirstFailingCheck := by
  intro c r _
  refine ⟨validate_badSom1, fun h0 => ⟨validate_badSom2 h0, fun h1 => ⟨validate_noLen h0 h1, fun l h2 => ?_⟩⟩⟩
  rw [validate_len h0 h1 h2]
  refine ⟨fun hrange => if_pos hrange, fun hmin hmax => ?_⟩
  rw [if_neg (not_or.mpr ⟨not_lt.mpr hmin, not_lt.mpr hmax⟩)]
  refine ⟨fun hshort => if_pos hshort, fun hlength => ?_⟩
  rw [if_neg (not_lt.mpr hlength)]
  refine ⟨fun heom => if_pos heom, fun heom => ?_⟩
  rw [if_neg (not_not.mpr heom)]
  refine ⟨fun hlong => if_pos hlong, fun hexact => ?_⟩
  have h3 : 3 < r.length := by omega
  refine ⟨_, List.getElem?_eq_getElem h3, ?_⟩
  rw [if_neg hexact.not_gt, List.getD_eq_getElem _ _ h3]

/-! ### The commands' round trip -/

theorem fitsPayload_of_command {c : Cfg} {i : Instr} (hc : c.wf) (hi : i.direction = .command) :
    fitsPayload c (payloadOf i) := by
  have := payloadOf_command_length hi
  have := hc.1
  simp only [fitsPayload]; omega

/-- With the write accepted, a command puts its encoding on the wire and answers `ok` (R115). -/
theorem exec_command_sent {s : State} {i : Instr} (hc : s.cfg.wf) (hi : i.direction = .command)
    (hwrite : s.env.nextWrite = .ok) : exec i s = .next (sentState s (encode s.cfg i)) := by
  rw [exec_command hi, sendCommand, sendFrame_ok (fitsPayload_of_command hc hi) hwrite]
  rfl

/-- Settles O8: the frame sent is the encoding, which validates to its row and decodes to the narrowed operands. -/
theorem everyCommandRoundTripsNarrowed : Obligations.EveryCommandRoundTripsNarrowed := by
  intro s i hc hi hwrite
  have hfits := fitsPayload_of_command hc hi
  have hdecode := decode_encode hc hfits
  rw [hi] at hdecode
  exact ⟨_, exec_command_sent hc hi hwrite, validate_frame _ hc.2.1 hfits, hdecode⟩

/-! ### The frame in progress

The registers determine the bytes consumed since the last start of a frame. An `RxStep` adds its byte to them or ends the
frame, and it ends it early only at a byte that no frame has there. -/

/-- The bytes of the in-progress frame consumed so far, read off the registers: `off` of them, the first three being the
markers and the accepted LEN, the rest the buffer's (R22 to R24). -/
def Parser.held (c : Cfg) (p : Parser) : List Byte := ([c.som1, c.som2, p.len] ++ p.buf).take p.off.toNat

/-- A frame without its last byte (R60). -/
def frameBeforeEom (c : Cfg) (op : Byte) (p : List Byte) : List Byte :=
  c.som1 :: c.som2 :: BitVec.ofNat 8 (5 + p.length) :: op :: p

/-- The bytes begin a frame and are not yet all of it. -/
def BeginsFrame (c : Cfg) (w : List Byte) : Prop := ∃ op p, fitsPayload c p ∧ w <+: frameBeforeEom c op p

theorem frame_eq_frameBeforeEom (c : Cfg) (op : Byte) (p : List Byte) :
    frame c op p = frameBeforeEom c op p ++ [c.eom] := rfl

theorem BeginsFrame.of_prefix {c : Cfg} {v w : List Byte} (h : BeginsFrame c w) (hv : v <+: w) : BeginsFrame c v := by
  obtain ⟨op, p, hfits, hw⟩ := h
  exact ⟨op, p, hfits, hv.trans hw⟩

/-- The LEN byte of a frame that fits reads as the frame's length (R61). -/
theorem lenByte_toNat {c : Cfg} {p : List Byte} (hmax : c.maxLen ≤ 255) (hfits : fitsPayload c p) :
    (BitVec.ofNat 8 (5 + p.length)).toNat = 5 + p.length := by
  rw [BitVec.toNat_ofNat]; omega

/-- Past the header the held bytes are the header and what the buffer holds of the body. -/
theorem held_of_three_le {c : Cfg} {p : Parser} (h : 3 ≤ p.off.toNat) :
    p.held c = c.som1 :: c.som2 :: p.len :: p.buf.take (p.off.toNat - 3) := by
  obtain ⟨n, hn⟩ := Nat.exists_eq_add_of_le' h
  simp [Parser.held, hn]

theorem held_of_off {c : Cfg} {p : Parser} {n : Nat} (h : p.off.toNat = n) (hn : n ≤ 2) :
    p.held c = [c.som1, c.som2].take n := by
  rw [Parser.held, h, List.take_append_of_le_length (by simp only [List.length_cons, List.length_nil]; omega)]
  interval_cases n <;> rfl

theorem held_awaitSom1 {c : Cfg} {p : Parser} (hok : p.ok c = true) (hst : p.st = .awaitSom1) : p.held c = [] := by
  obtain ⟨_, _, hoff, _⟩ := (ok_awaitSom1 hst).mp hok
  exact held_of_off hoff (by decide)

theorem held_awaitSom2 {c : Cfg} {p : Parser} (hok : p.ok c = true) (hst : p.st = .awaitSom2) :
    p.held c = [c.som1] := by
  obtain ⟨_, _, hoff, _⟩ := (ok_awaitSom2 hst).mp hok
  exact held_of_off hoff (by decide)

theorem held_awaitLen {c : Cfg} {p : Parser} (hok : p.ok c = true) (hst : p.st = .awaitLen) :
    p.held c = [c.som1, c.som2] := by
  obtain ⟨_, _, hoff, _⟩ := (ok_awaitLen hst).mp hok
  exact held_of_off hoff (by decide)

/-- Before the EOM byte everything but that byte is held. -/
theorem held_awaitEom {c : Cfg} {p : Parser} (hok : p.ok c = true) (hst : p.st = .awaitEom) :
    p.held c = c.som1 :: c.som2 :: p.len :: p.body := by
  obtain ⟨_, _, hmin, _, hoff⟩ := (ok_awaitEom hst).mp hok
  simp only [minLen] at hmin
  rw [held_of_three_le (by omega), hoff]
  rfl

theorem held_resynced (c : Cfg) (p : Parser) : p.resynced.held c = [] := rfl

/-- Bytes polled within a frame: they join the bytes held, and nothing outside the parser changes. -/
structure HoldsMore (s : State) (q : List Byte) (t : State) : Prop where
  cfg : t.cfg = s.cfg
  status : t.status = s.status
  env : t.env = s.env
  held : t.parser.held s.cfg = s.parser.held s.cfg ++ q

theorem HoldsMore.refl (s : State) : HoldsMore s [] s := ⟨rfl, rfl, rfl, (List.append_nil _).symm⟩

theorem HoldsMore.trans {s t u : State} {q q' : List Byte} (h : HoldsMore s q t) (h' : HoldsMore t q' u) :
    HoldsMore s (q ++ q') u where
  cfg := h'.cfg.trans h.cfg
  status := h'.status.trans h.status
  env := h'.env.trans h.env
  held := by rw [← h.cfg, h'.held, h.cfg, h.held, List.append_assoc]

/-- A payload byte joins those held (R95). -/
theorem stepAccum_holdsMore {b : Byte} {s : State} (hmax : s.cfg.maxLen ≤ 255) (hok : s.parser.ok s.cfg = true)
    (hst : s.parser.st = .accumulatingPayload) : HoldsMore s [b] (stepAccum b s) := by
  obtain ⟨_, _, hmin, _, hoff, hlast⟩ := (ok_accumulating hst).mp hok
  have hroom : s.parser.off.toNat + [b].length ≤ s.parser.len.toNat - 1 := by
    simp only [List.length_singleton, minLen] at *; omega
  obtain ⟨m, hpoll, _, _, hlen, hmoff, _, hbuf⟩ := pollBytes_accumulate [b] s hmax hok hst hroom
  have hone : rxStep b s = .next (stepAccum b s) := by simp [rxStep, hok, hst]
  rw [pollBytes_singleton, hone] at hpoll
  cases hpoll
  refine ⟨rfl, rfl, rfl, ?_⟩
  rw [List.length_singleton] at hmoff hbuf
  rw [held_of_three_le hoff, held_of_three_le (by omega), hlen, hmoff, Nat.sub_add_comm hoff, hbuf]
  rfl

/-- The held bytes before the EOM byte and one more are a whole frame's length, too long to be the beginning of one. -/
theorem not_beginsFrame_of_awaitEom {c : Cfg} {p : Parser} (b : Byte) (hmax : c.maxLen ≤ 255) (hok : p.ok c = true)
    (hst : p.st = .awaitEom) : ¬ BeginsFrame c (p.held c ++ [b]) := by
  rintro ⟨op, q, hfits, hprefix⟩
  obtain ⟨hbody, _⟩ := body_awaitEom hok hst
  rw [held_awaitEom hok hst] at hprefix
  simp only [frameBeforeEom, List.cons_append, List.cons_prefix_cons] at hprefix
  obtain ⟨_, _, hlen, hrest⟩ := hprefix
  have hlenNat : p.len.toNat = 5 + q.length := hlen ▸ lenByte_toNat hmax hfits
  have hle := hrest.length_le
  simp only [List.length_append, List.length_cons, List.length_nil] at hle
  omega

/-- All that an `RxStep` does to the frame in progress (R90): the parser stays within R26, and the byte joins the bytes held
with nothing else changed, or nothing is held afterwards and the bytes were not the beginning of a frame. -/
theorem rxStep_held (b : Byte) {s : State} (hwf : s.cfg.wf) (hok : s.parser.ok s.cfg = true) :
    ∃ t, rxStep b s = .next t ∧ t.cfg = s.cfg ∧ t.parser.ok s.cfg = true ∧
      (HoldsMore s [b] t ∨ t.parser.held s.cfg = [] ∧ ¬ BeginsFrame s.cfg (s.parser.held s.cfg ++ [b])) := by
  obtain ⟨hready, hbuf⟩ := ok_buf hok
  rcases rxStep_cases b s with ⟨hbad, _⟩ | ⟨_, hrow⟩
  · rw [hok] at hbad; cases hbad
  rcases hrow with ⟨hst, hb, e⟩ | ⟨hst, hb, e⟩ | ⟨hst, hb, e⟩ | ⟨hst, hb, e⟩ | ⟨hst, ⟨hmin, hmax⟩, e⟩ | ⟨hst, hb, e⟩ |
      ⟨hst, e⟩ | ⟨hst, _, _, _, _, _, _, _, e⟩ | ⟨hst, _, e⟩ <;> refine ⟨_, e, rfl, ?_⟩
  · obtain ⟨_, _, _, hlen⟩ := (ok_awaitSom1 hst).mp hok
    refine ⟨(ok_awaitSom2 rfl).mpr ⟨hready, hbuf, rfl, hlen⟩, .inl ⟨rfl, rfl, rfl, ?_⟩⟩
    rw [held_awaitSom1 hok hst, hb]; rfl
  · refine ⟨hok, .inr ⟨held_awaitSom1 hok hst, ?_⟩⟩
    rw [held_awaitSom1 hok hst]
    rintro ⟨op, p, _, hprefix⟩
    exact hb (List.cons_prefix_cons.mp hprefix).1
  · obtain ⟨_, _, _, hlen⟩ := (ok_awaitSom2 hst).mp hok
    refine ⟨(ok_awaitLen rfl).mpr ⟨hready, hbuf, rfl, hlen⟩, .inl ⟨rfl, rfl, rfl, ?_⟩⟩
    rw [held_awaitSom2 hok hst, hb]; rfl
  · refine ⟨ok_resynced hbuf, .inr ⟨rfl, ?_⟩⟩
    rw [held_awaitSom2 hok hst]
    rintro ⟨op, p, _, hprefix⟩
    exact hb (List.cons_prefix_cons.mp (List.cons_prefix_cons.mp hprefix).2).1
  · have hroom : 3 ≤ b.toNat - 2 := by simp only [minLen] at hmin; omega
    refine ⟨(ok_accumulating rfl).mpr ⟨hready, hbuf, hmin, hmax, le_rfl, hroom⟩, .inl ⟨rfl, rfl, rfl, ?_⟩⟩
    rw [held_awaitLen hok hst]; rfl
  · refine ⟨ok_resynced hbuf, .inr ⟨rfl, ?_⟩⟩
    rw [held_awaitLen hok hst]
    rintro ⟨op, p, hfits, hprefix⟩
    simp only [frameBeforeEom, List.cons_append, List.nil_append, List.cons_prefix_cons] at hprefix
    obtain ⟨_, _, rfl, _⟩ := hprefix
    rw [lenByte_toNat hwf.2.1 hfits] at hb
    exact hb ⟨Nat.le_add_right _ _, hfits⟩
  · exact ⟨stepAccum_ok hwf.2.1 hok hst, .inl (stepAccum_holdsMore hwf.2.1 hok hst)⟩
  · exact ⟨ok_resynced hbuf, .inr ⟨rfl, not_beginsFrame_of_awaitEom b hwf.2.1 hok hst⟩⟩
  · exact ⟨ok_resynced hbuf, .inr ⟨rfl, not_beginsFrame_of_awaitEom b hwf.2.1 hok hst⟩⟩

/-! ### A valid frame is dispatched once, at its last byte -/

/-- As long as the bytes are the beginning of a frame, polling them only gathers them. -/
theorem pollBytes_holdsMore (q : List Byte) : ∀ {s : State}, s.cfg.wf → s.parser.ok s.cfg = true →
    BeginsFrame s.cfg (s.parser.held s.cfg ++ q) →
    ∃ m, pollBytes q s = .next m ∧ m.parser.ok s.cfg = true ∧ HoldsMore s q m := by
  induction q with
  | nil => intro s _ hok _; exact ⟨s, rfl, hok, .refl s⟩
  | cons b q ih =>
    intro s hwf hok hbegins
    rw [List.append_cons] at hbegins
    obtain ⟨t, hstep, hcfg, htok, hmore | ⟨_, hnot⟩⟩ := rxStep_held b hwf hok
    · rw [← hmore.held, ← hcfg] at hbegins
      rw [← hcfg] at htok hwf
      obtain ⟨m, hpoll, hmok, hrest⟩ := ih hwf htok hbegins
      exact ⟨m, by rw [pollBytes_cons, hstep, andThen_next, hpoll], hcfg ▸ hmok, hmore.trans hrest⟩
    · exact absurd (hbegins.of_prefix (List.prefix_append _ q)) hnot

/-- A parser that holds a whole frame but its last byte waits for that byte, the body in its buffer. -/
theorem awaitEom_of_held {c : Cfg} {r : Parser} {op : Byte} {p : List Byte} (hmax : c.maxLen ≤ 255)
    (hfits : fitsPayload c p) (hok : r.ok c = true) (hheld : r.held c = frameBeforeEom c op p) :
    r.st = .awaitEom ∧ r.body = op :: p := by
  have hlength := congrArg List.length hheld
  cases hst : r.st with
  | awaitSom1 => simp [held_awaitSom1 hok hst, frameBeforeEom] at hlength
  | awaitSom2 => simp [held_awaitSom2 hok hst, frameBeforeEom] at hlength
  | awaitLen => simp [held_awaitLen hok hst, frameBeforeEom] at hlength
  | accumulatingPayload =>
    obtain ⟨_, hbuf, _, hle, hoff, hlast⟩ := (ok_accumulating hst).mp hok
    rw [held_of_three_le hoff] at hheld hlength
    simp only [frameBeforeEom, List.cons.injEq, true_and] at hheld
    obtain ⟨hlen, _⟩ := hheld
    have hlenNat : r.len.toNat = 5 + p.length := hlen ▸ lenByte_toNat hmax hfits
    simp only [frameBeforeEom, List.length_cons, List.length_take, hbuf, Cfg.rxbufCap] at hlength
    omega
  | awaitEom =>
    rw [held_awaitEom hok hst] at hheld
    simp only [frameBeforeEom, List.cons.injEq, true_and] at hheld
    exact ⟨rfl, hheld.2⟩

/-- The EOM byte dispatches the body in the buffer, as `Dispatch` would from a state with the same status model and an
environment of its own (R96, R114). -/
theorem rxStep_eom {m s : State} {op : Byte} {p : List Byte} (hok : m.parser.ok m.cfg = true)
    (hst : m.parser.st = .awaitEom) (hbody : m.parser.body = op :: p) (hcfg : s.cfg = m.cfg)
    (hstatus : s.status = m.status) (henv : s.env = m.env) :
    ∃ u t, dispatch op p s = .next u ∧ rxStep m.cfg.eom m = .next t ∧
      t.status = u.status ∧ t.env = u.env ∧ t.cfg = m.cfg ∧ t.AtRest := by
  obtain ⟨st, evs, hd, hd'⟩ := dispatch_uniform op p (markReady m) s hcfg hstatus
  have hstep : rxStep m.cfg.eom m = .next (resync (appliedState (markReady m) st evs)) := by
    simp [rxStep, hok, hst, stepEom, hbody, hd]
  refine ⟨_, _, hd', hstep, rfl, ?_, rfl, ok_resynced (ok_buf hok).2, rfl⟩
  simp [appliedState, henv]

/-- Any beginning of a frame, its last byte left out, only gathers bytes. -/
theorem poll_of_prefix {s : State} {op : Byte} {p q : List Byte} (hwf : s.cfg.wf) (hrest : s.AtRest)
    (hfits : fitsPayload s.cfg p) (hq : q <+: frameBeforeEom s.cfg op p) :
    ∃ m, pollBytes q s = .next m ∧ m.parser.ok s.cfg = true ∧ HoldsMore s q m := by
  obtain ⟨hok, hst⟩ := hrest
  refine pollBytes_holdsMore q hwf hok ⟨op, p, hfits, ?_⟩
  rwa [held_awaitSom1 hok hst]

/-- A whole frame polled from rest is dispatched at its EOM byte (R87). -/
theorem deliversFrame_frame {s : State} {op : Byte} {p : List Byte} (hwf : s.cfg.wf) (hrest : s.AtRest)
    (hfits : fitsPayload s.cfg p) : DeliversFrame (frame s.cfg op p) op p [] s := by
  obtain ⟨m, hpoll, hmok, hmore⟩ := poll_of_prefix (op := op) hwf hrest hfits List.prefix_rfl
  have hheld := hmore.held
  rw [held_awaitSom1 hrest.1 hrest.2, List.nil_append] at hheld
  obtain ⟨hst, hbody⟩ := awaitEom_of_held hwf.2.1 hfits hmok hheld
  rw [← hmore.cfg] at hmok
  obtain ⟨u, t, hd, hstep, hstatus, henv, hcfg, hat⟩ := rxStep_eom (s := appliedState s s.status []) hmok hst hbody
    hmore.cfg.symm hmore.status.symm (by simp [appliedState, hmore.env])
  refine ⟨u, t, hd, ?_, hstatus, henv, hcfg.trans hmore.cfg, hat⟩
  rw [frame_eq_frameBeforeEom, pollBytes_append, hpoll, andThen_next, pollBytes_singleton, ← hmore.cfg, hstep]

/-- Settles O21: every shorter part of the frame only gathers bytes, and the EOM byte dispatches what was gathered. -/
theorem parserDispatchesAValidFrameExactlyOnce : Obligations.ParserDispatchesAValidFrameExactlyOnce := by
  intro s r op p hwf hrest hvalid
  obtain ⟨hfits, rfl⟩ := eq_frame_of_validate hvalid
  refine ⟨fun k hk => ?_, deliversFrame_frame hwf hrest hfits⟩
  have hshort : (frame s.cfg op p).take k <+: frameBeforeEom s.cfg op p := by
    rw [frame_eq_frameBeforeEom, List.length_append, List.length_singleton] at hk
    rw [frame_eq_frameBeforeEom, List.take_append_of_le_length (Nat.le_of_lt_succ hk)]
    exact List.take_prefix k _
  obtain ⟨m, hpoll, _, hmore⟩ := poll_of_prefix hwf hrest hfits hshort
  exact ⟨m, hpoll, hmore.status, hmore.env, hmore.cfg⟩

/-! ### A dispatched frame is the last bytes consumed -/

/-- The bytes held are always the last ones consumed. -/
theorem pollBytes_held_suffix (bs : List Byte) : ∀ {s m : State}, s.cfg.wf → s.parser.ok s.cfg = true →
    pollBytes bs s = .next m →
    m.parser.ok s.cfg = true ∧ m.parser.held s.cfg <:+ s.parser.held s.cfg ++ bs := by
  induction bs with
  | nil => intro s m _ hok hpoll; cases hpoll; exact ⟨hok, by rw [List.append_nil]⟩
  | cons b bs ih =>
    intro s m hwf hok hpoll
    obtain ⟨t, hstep, hcfg, htok, hheld⟩ := rxStep_held b hwf hok
    rw [pollBytes_cons, hstep, andThen_next] at hpoll
    obtain ⟨hmok, hsuffix⟩ := ih (hcfg ▸ hwf) (hcfg ▸ htok) hpoll
    rw [hcfg] at hmok hsuffix
    refine ⟨hmok, hsuffix.trans ?_⟩
    obtain hmore | ⟨hnone, _⟩ := hheld
    · rw [hmore.held, List.append_assoc]; exact List.suffix_rfl
    · rw [hnone, List.append_cons]; exact List.suffix_append _ _

/-- Settles O22: the bytes held are the last consumed, and before the EOM byte they are a frame but for that byte. -/
theorem dispatchedFramesAreTheLastBytesConsumed : Obligations.DispatchedFramesAreTheLastBytesConsumed := by
  intro s bs m op p hwf hrest hpoll hst hbody
  obtain ⟨hok, pre, hpre⟩ := pollBytes_held_suffix bs hwf hrest.1 hpoll
  rw [held_awaitSom1 hrest.1 hrest.2, List.nil_append] at hpre
  obtain ⟨hlength, _⟩ := body_awaitEom hok hst
  obtain ⟨_, _, hmin, hmax, _⟩ := (ok_awaitEom hst).mp hok
  have hbody' : m.parser.body = op :: p := hbody
  rw [hbody', List.length_cons] at hlength
  have hlen : m.parser.len.toNat = 5 + p.length := by simp only [minLen] at hmin; omega
  have hheld : m.parser.held s.cfg = frameBeforeEom s.cfg op p := by
    rw [held_awaitEom hok hst, hbody', frameBeforeEom, ← hlen, BitVec.ofNat_toNat, BitVec.setWidth_eq]
  refine ⟨pre, _, hpre.symm, ?_, ?_⟩
  · rw [hheld, hlen, frameBeforeEom]; simp only [List.length_cons]; omega
  · rw [hheld, ← frame_eq_frameBeforeEom]
    exact validate_frame op hwf.2.1 (hlen.ge.trans hmax)

end Sys2Proof.Machine

/-! PROOFS of the family 41_stream_parser: the transition table, polling in chunks, and what the parser does with a damaged
frame. A damaged frame is followed up to the byte at which it is dropped; from the parser at rest again, a frame is delivered
as from any other state at rest. -/

namespace Sys2Proof.Machine

/-! ### The rows of the transition table -/

section
variable {s : State} {b : Byte} (hok : s.parser.ok s.cfg = true)
include hok

theorem rxStep_som1 (hst : s.parser.st = .awaitSom1) (hb : b = s.cfg.som1) :
    rxStep b s = .next (parserAt s .awaitSom2 1 s.parser.len) := by
  simp only [rxStep, hok, hst, stepSom1, hb, if_true]; rfl

/-- Hunting for a start, any other byte does nothing (R92). -/
theorem rxStep_not_som1 (hst : s.parser.st = .awaitSom1) (hb : b ≠ s.cfg.som1) : rxStep b s = .next s := by
  simp only [rxStep, hok, hst, stepSom1, hb, if_true, if_false]

theorem rxStep_som2 (hst : s.parser.st = .awaitSom2) (hb : b = s.cfg.som2) :
    rxStep b s = .next (parserAt s .awaitLen 2 s.parser.len) := by
  simp only [rxStep, hok, hst, stepSom2, hb, if_true]; rfl

theorem rxStep_not_som2 (hst : s.parser.st = .awaitSom2) (hb : b ≠ s.cfg.som2) :
    rxStep b s = .next (droppedState s .badSom2) := by
  simp only [rxStep, hok, hst, stepSom2, hb, if_true, if_false]; rfl

theorem rxStep_len (hst : s.parser.st = .awaitLen) (hmin : 5 ≤ b.toNat) (hmax : b.toNat ≤ s.cfg.maxLen) :
    rxStep b s = .next (parserAt s .accumulatingPayload 3 b) := by
  have hb : minLen ≤ b.toNat ∧ b.toNat ≤ s.cfg.maxLen := ⟨hmin, hmax⟩
  simp only [rxStep, hok, hst, stepLen, hb, and_self, if_true]; rfl

theorem rxStep_len_outOfRange (hst : s.parser.st = .awaitLen) (hb : b.toNat < 5 ∨ s.cfg.maxLen < b.toNat) :
    rxStep b s = .next (droppedState s .badLen) := by
  have hb' : ¬ (minLen ≤ b.toNat ∧ b.toNat ≤ s.cfg.maxLen) := by simp only [minLen]; omega
  simp only [rxStep, hok, hst, stepLen, hb', if_true, if_false]; rfl

/-- While a frame accumulates, `off` has room for one more byte (R26). -/
theorem toNat_off_add_one (hst : s.parser.st = .accumulatingPayload) :
    (s.parser.off + 1).toNat = s.parser.off.toNat + 1 := by
  obtain ⟨_, _, hmin, _, _, hlast⟩ := (ok_accumulating hst).mp hok
  have := s.parser.len.isLt
  simp only [minLen] at hmin
  have hone : (1 : BitVec 8).toNat = 1 := rfl
  rw [BitVec.toNat_add, hone]; omega

theorem rxStep_payload (hst : s.parser.st = .accumulatingPayload)
    (hmore : s.parser.off.toNat + 1 < s.parser.len.toNat - 1) :
    rxStep b s = .next { s with parser := { s.parser with
      buf := s.parser.buf.set (s.parser.off.toNat - 3) b, off := s.parser.off + 1 } } := by
  simp only [rxStep, hok, hst, stepAccum, toNat_off_add_one hok hst, hmore.ne, if_true, if_false]
  simp only [← hst]; rfl

theorem rxStep_lastPayload (hst : s.parser.st = .accumulatingPayload)
    (hlast : s.parser.off.toNat + 1 = s.parser.len.toNat - 1) :
    rxStep b s = .next { s with parser := { s.parser with
      buf := s.parser.buf.set (s.parser.off.toNat - 3) b, off := s.parser.off + 1, st := .awaitEom } } := by
  simp only [rxStep, hok, hst, stepAccum, toNat_off_add_one hok hst, hlast, if_true]; rfl

theorem rxStep_not_eom (hst : s.parser.st = .awaitEom) (hb : b ≠ s.cfg.eom) :
    rxStep b s = .next (droppedState s .badEom) := by
  simp only [rxStep, hok, hst, stepEom, hb, if_true, if_false]; rfl

/-- At EOM the buffered opcode and payload are dispatched, and the parser is at rest with its buffer as it was (R96). -/
theorem rxStep_dispatch (hst : s.parser.st = .awaitEom) (hb : b = s.cfg.eom) :
    ∃ op p u, s.parser.body = op :: p ∧ dispatch op p s = .next u ∧
      rxStep b s = .next { u with parser :=
        { st := .awaitSom1, off := 0, len := 0, buf := s.parser.buf, frameReady := false } } := by
  obtain ⟨_, op, p, hbody⟩ := body_awaitEom hok hst
  obtain ⟨st, evs, hd, hd'⟩ := dispatch_uniform op p (markReady s) s rfl rfl
  refine ⟨op, p, _, hbody, hd', ?_⟩
  simp only [rxStep, hok, hst, stepEom, hb, hbody, hd, if_true, andThen_next]; rfl

end

/-- Settles O17: one lemma per row. -/
theorem rxStepFollowsTheTransitionTable : Obligations.RxStepFollowsTheTransitionTable := fun _ _ hok =>
  ⟨rxStep_som1 hok, rxStep_not_som1 hok, rxStep_som2 hok, rxStep_not_som2 hok, rxStep_len hok, rxStep_len_outOfRange hok,
    rxStep_payload hok, rxStep_lastPayload hok, rxStep_not_eom hok, rxStep_dispatch hok⟩

/-- Settles O18: each row lands within R26, which following the frame in progress has established. -/
theorem rxStepIsTotalOnTheInvariant : Obligations.RxStepIsTotalOnTheInvariant := by
  intro s b hwf hok
  obtain ⟨t, hstep, hcfg, htok, _⟩ := rxStep_held b hwf hok
  exact ⟨t, hstep, hcfg.symm ▸ htok⟩

/-- Settles O20: the bounds are those of R26 in this parser state, with the sizes of R7. -/
theorem bufferWritesStayInBounds : Obligations.BufferWritesStayInBounds := by
  intro s hwf hok hst
  obtain ⟨_, hbuf, hmin, hmax, hoff, hlast⟩ := (ok_accumulating hst).mp hok
  have := hwf.1
  simp only [minLen, Cfg.rxbufCap] at hmin hbuf
  omega

/-! ### Polling in chunks -/

/-- Polling chunk after chunk goes on from an outcome as one poll of all their bytes does (R101). -/
theorem foldl_pollBytes (chunks : List (List Byte)) : ∀ o : Host.Outcome State Fault Refusal,
    chunks.foldl (fun o chunk => andThen o (pollBytes chunk)) o = andThen o (pollBytes chunks.flatten) := by
  induction chunks with
  | nil => intro o; cases o <;> rfl
  | cons chunk chunks ih =>
    intro o
    rw [List.foldl_cons, ih, andThen_assoc, List.flatten_cons]
    exact congrArg (andThen o) (funext fun s => (pollBytes_append chunk chunks.flatten s).symm)

/-- Settles O23. -/
theorem pollingIsChunkSizeIndependent : Obligations.PollingIsChunkSizeIndependent := by
  intro chunks s
  rw [foldl_pollBytes, andThen_next]

/-! ### A frame that is not delivered -/

/-- Polling the bytes from `s` dispatches nothing: it records these events, and the parser is at rest afterwards. -/
def EndsAtRest (bs : List Byte) (evs : List Event) (s : State) : Prop :=
  ∃ t, pollBytes bs s = .next t ∧ t.status = s.status ∧ t.env = { s.env with trace := s.env.trace ++ evs } ∧
    t.cfg = s.cfg ∧ t.AtRest

/-- A frame polled after them is delivered (R87): a dispatch depends on the status model alone. -/
theorem EndsAtRest.deliversFrame {s : State} {bs : List Byte} {evs : List Event} {op : Byte} {p : List Byte}
    (h : EndsAtRest bs evs s) (hwf : s.cfg.wf) (hfits : fitsPayload s.cfg p) :
    DeliversFrame (bs ++ frame s.cfg op p) op p evs s := by
  obtain ⟨m, hpoll, hstatus, henv, hcfg, hrest⟩ := h
  rw [← hcfg] at hwf hfits
  obtain ⟨_, t, hm, hframe, htstatus, htenv, htcfg, htrest⟩ := deliversFrame_frame (op := op) hwf hrest hfits
  obtain ⟨st, evs', hd, hd'⟩ := dispatch_uniform op p (appliedState m m.status []) (appliedState s s.status evs)
    hcfg.symm hstatus.symm
  rw [hd] at hm
  cases hm
  refine ⟨_, t, hd', ?_, htstatus, ?_, htcfg.trans hcfg, htrest⟩
  · rw [pollBytes_append, hpoll, andThen_next, ← hcfg, hframe]
  · simp [htenv, appliedState, henv]

/-- The byte at which a frame in progress is dropped leaves the parser at rest (R97). -/
theorem endsAtRest_of_drop {s m : State} {q : List Byte} {x : Byte} {cause : Malformation}
    (hpoll : pollBytes q s = .next m) (hok : m.parser.ok s.cfg = true) (hmore : HoldsMore s q m)
    (hdrop : rxStep x m = .next (droppedState m cause)) : EndsAtRest (q ++ [x]) [.dropped cause] s := by
  refine ⟨droppedState m cause, ?_, hmore.status, ?_, hmore.cfg, ?_, rfl⟩
  · rw [pollBytes_append, hpoll, andThen_next, pollBytes_singleton, hdrop]
  · simp only [droppedState, hmore.env]
  · exact ok_resynced (hmore.cfg ▸ (ok_buf hok).2)

/-- Polled from rest, the beginning of a frame is all that the parser holds. -/
theorem HoldsMore.held_of_rest {s m : State} {q : List Byte} (h : HoldsMore s q m) (hrest : s.AtRest) :
    m.parser.held s.cfg = q := by
  rw [h.held, held_awaitSom1 hrest.1 hrest.2, List.nil_append]

/-- A frame with another byte in the place of EOM is dropped there (R96). -/
theorem endsAtRest_badEom {s : State} {op x : Byte} {p : List Byte} (hwf : s.cfg.wf) (hrest : s.AtRest)
    (hfits : fitsPayload s.cfg p) (hx : x ≠ s.cfg.eom) :
    EndsAtRest (frameBeforeEom s.cfg op p ++ [x]) [.dropped .badEom] s := by
  obtain ⟨m, hpoll, hmok, hmore⟩ := poll_of_prefix (op := op) hwf hrest hfits List.prefix_rfl
  obtain ⟨hst, _⟩ := awaitEom_of_held hwf.2.1 hfits hmok (hmore.held_of_rest hrest)
  refine endsAtRest_of_drop hpoll hmok hmore (rxStep_not_eom ?_ hst ?_) <;> rwa [hmore.cfg]

/-- Settles O24: up to the damaged byte the bytes are the beginning of a frame, and at that byte the frame is dropped. -/
theorem corruptedEomLosesOnlyItsFrame : Obligations.CorruptedEomLosesOnlyItsFrame := by
  intro s f g x op op' p p' hwf hrest hf hg hx
  obtain ⟨hfits, rfl⟩ := eq_frame_of_validate hf
  obtain ⟨hfits', rfl⟩ := eq_frame_of_validate hg
  have hset : (frame s.cfg op p).set ((frame s.cfg op p).length - 1) x = frameBeforeEom s.cfg op p ++ [x] := by
    simp [frame_eq_frameBeforeEom]
  have hdropped := endsAtRest_badEom (op := op) hwf hrest hfits hx
  rw [hset]
  refine ⟨fun k hk => ?_, hdropped, hdropped.deliversFrame hwf hfits'⟩
  rw [frame_eq_frameBeforeEom, List.length_append, List.length_singleton] at hk
  rw [List.take_append_of_le_length (Nat.le_of_lt_succ hk)]
  obtain ⟨m, hpoll, _, hmore⟩ := poll_of_prefix hwf hrest hfits (List.take_prefix k (frameBeforeEom s.cfg op p))
  exact ⟨m, hpoll, hmore.status, hmore.env, hmore.cfg⟩

/-- Hunting for a start, bytes other than SOM1 do nothing (R92). -/
theorem pollBytes_of_no_som1 {s : State} (hrest : s.AtRest) (q : List Byte) (hq : ∀ b ∈ q, b ≠ s.cfg.som1) :
    pollBytes q s = .next s := by
  induction q with
  | nil => rfl
  | cons b q ih =>
    obtain ⟨hb, hq⟩ := List.forall_mem_cons.mp hq
    rw [pollBytes_cons, rxStep_not_som1 hrest.1 hrest.2 hb, andThen_next, ih hq]

theorem EndsAtRest.append_of_no_som1 {s : State} {bs q : List Byte} {evs : List Event} (h : EndsAtRest bs evs s)
    (hq : ∀ b ∈ q, b ≠ s.cfg.som1) : EndsAtRest (bs ++ q) evs s := by
  obtain ⟨t, hpoll, hstatus, henv, hcfg, hrest⟩ := h
  refine ⟨t, ?_, hstatus, henv, hcfg, hrest⟩
  rw [pollBytes_append, hpoll, andThen_next, pollBytes_of_no_som1 hrest q (hcfg ▸ hq)]

/-- One byte held, the parser waits for SOM2, and two, for LEN (R26). -/
theorem st_of_held_length {c : Cfg} {r : Parser} (hok : r.ok c = true) :
    ((r.held c).length = 1 → r.st = .awaitSom2) ∧ ((r.held c).length = 2 → r.st = .awaitLen) := by
  cases hst : r.st with
  | awaitSom1 => simp [held_awaitSom1 hok hst]
  | awaitSom2 => simp [held_awaitSom2 hok hst]
  | awaitLen => simp [held_awaitLen hok hst]
  | accumulatingPayload =>
    obtain ⟨_, _, _, _, hoff, _⟩ := (ok_accumulating hst).mp hok
    simp [held_of_three_le hoff]
  | awaitEom => simp [held_awaitEom hok hst]

theorem EndsAtRest.nil {s : State} (hrest : s.AtRest) : EndsAtRest [] [] s := ⟨s, rfl, rfl, by simp, rfl, hrest⟩

/-- A damaged header is given up at the damaged byte, with the cause of that byte; in the place of SOM1 there is no frame to
drop (R92 to R94). -/
theorem endsAtRest_badHeader {s : State} {op x : Byte} {p : List Byte} {k : Nat} {evs : List Event} (hwf : s.cfg.wf)
    (hrest : s.AtRest) (hfits : fitsPayload s.cfg p) (hx : (frame s.cfg op p)[k]? ≠ some x)
    (hk : (k = 0 ∧ evs = []) ∨ (k = 1 ∧ evs = [.dropped .badSom2]) ∨
      (k = 2 ∧ (x.toNat < 5 ∨ s.cfg.maxLen < x.toNat) ∧ evs = [.dropped .badLen])) :
    EndsAtRest ((frame s.cfg op p).take k ++ [x]) evs s := by
  obtain ⟨rfl, rfl⟩ | ⟨rfl, rfl⟩ | ⟨rfl, hrange, rfl⟩ := hk
  · have hsom1 : x ≠ s.cfg.som1 := fun h => hx (h ▸ rfl)
    exact (EndsAtRest.nil hrest).append_of_no_som1 (List.forall_mem_singleton.mpr hsom1)
  · have hsom2 : x ≠ s.cfg.som2 := fun h => hx (h ▸ rfl)
    obtain ⟨m, hpoll, hok, hmore⟩ := poll_of_prefix (op := op) (q := [s.cfg.som1]) hwf hrest hfits
      (by simp [frameBeforeEom])
    have hst := (st_of_held_length hok).1 (congrArg List.length (hmore.held_of_rest hrest))
    rw [← hmore.cfg] at hsom2
    exact endsAtRest_of_drop hpoll hok hmore (rxStep_not_som2 (hmore.cfg ▸ hok) hst hsom2)
  · obtain ⟨m, hpoll, hok, hmore⟩ := poll_of_prefix (op := op) (q := [s.cfg.som1, s.cfg.som2]) hwf hrest hfits
      (by simp [frameBeforeEom])
    have hst := (st_of_held_length hok).2 (congrArg List.length (hmore.held_of_rest hrest))
    rw [← hmore.cfg] at hrange
    exact endsAtRest_of_drop hpoll hok hmore (rxStep_len_outOfRange (hmore.cfg ▸ hok) hst hrange)

/-- Settles O25: given up at the damaged byte, with no start in what is left of it, the frame leaves the parser hunting. -/
theorem corruptedHeaderRecoversWithoutAFalseStart : Obligations.CorruptedHeaderRecoversWithoutAFalseStart := by
  intro s f g k x op op' p p' evs hwf hrest hf hg hx hk hlater
  obtain ⟨hfits, rfl⟩ := eq_frame_of_validate hf
  obtain ⟨hfits', rfl⟩ := eq_frame_of_validate hg
  have hkLength : k < (frame s.cfg op p).length := by rw [frame_length]; omega
  have hset : (frame s.cfg op p).set k x = (frame s.cfg op p).take k ++ [x] ++ (frame s.cfg op p).drop (k + 1) := by
    rw [List.set_eq_take_append_cons_drop, if_pos hkLength, ← List.append_cons]
  rw [hset]
  exact ((endsAtRest_badHeader hwf hrest hfits hx hk).append_of_no_som1 hlater).deliversFrame hwf hfits'

/-! ### A frame that is delivered as another -/

/-- The payload that a frame's LEN byte, replaced by `n + 5`, leaves of it (R103). -/
theorem take_set_len_frame {c : Cfg} {op x y : Byte} {p : List Byte} {n : Nat} (hx : x.toNat = n + 5) (hn : n < p.length)
    (hy : (frame c op p)[n + 4]? = some y) :
    ((frame c op p).set 2 x).take (n + 5) = frameBeforeEom c op (p.take n) ++ [y] ∧
      ((frame c op p).take (n + 4)).drop 4 = p.take n := by
  have hlast : p[n]? = some y := by simpa [frame, List.getElem?_append_left hn] using hy
  have hlen : BitVec.ofNat 8 (5 + (p.take n).length) = x := by
    rw [List.length_take_of_le hn.le, Nat.add_comm, ← hx, BitVec.ofNat_toNat, BitVec.setWidth_eq]
  have hshort : (p ++ [c.eom]).take n = p.take n := List.take_append_of_le_length hn.le
  have hlong : (p ++ [c.eom]).take (n + 1) = p.take n ++ [y] := by
    rw [List.take_append_of_le_length hn, List.take_add_one, hlast, Option.toList_some]
  rw [frameBeforeEom, hlen]
  simp [frame, hshort, hlong]

/-- Settles O26: what the parser takes for the frame is a frame but for its last byte, which decides. -/
theorem shortenedLenIsCheckedAtTheWrongEom : Obligations.ShortenedLenIsCheckedAtTheWrongEom := by
  intro s f x op p hwf hrest hf hmin hmax
  obtain ⟨hfits, rfl⟩ := eq_frame_of_validate hf
  obtain ⟨n, hn⟩ := Nat.exists_eq_add_of_le' hmin
  rw [hn, frame_length] at hmax
  have hnp : n < p.length := by omega
  obtain ⟨y, hy⟩ : ∃ y, (frame s.cfg op p)[n + 4]? = some y :=
    ⟨_, List.getElem?_eq_getElem (by rw [frame_length]; omega)⟩
  obtain ⟨htake, hpayload⟩ := take_set_len_frame hn hnp hy
  have hfits' : fitsPayload s.cfg (p.take n) := by
    rw [fitsPayload, List.length_take_of_le hnp.le]; omega
  rw [hn, Nat.add_sub_assoc (by decide), hy, htake, hpayload]
  constructor
  · rintro ⟨⟩
    exact deliversFrame_frame hwf hrest hfits'
  · intro hne
    have hyEom : y ≠ s.cfg.eom := fun h => hne (h ▸ rfl)
    obtain ⟨t, hpoll, hstatus, henv, _, htrest⟩ := endsAtRest_badEom (op := op) hwf hrest hfits' hyEom
    exact ⟨t, hpoll, hstatus, henv, htrest⟩

/-- Replacing a body byte of a frame gives the frame of the body with that byte replaced. -/
theorem set_body_frame (c : Cfg) (op x : Byte) (p : List Byte) {j : Nat} (hj : j ≤ p.length) :
    ∃ op' p', op' :: p' = (op :: p).set j x ∧ p'.length = p.length ∧
      (frame c op p).set (j + 3) x = frame c op' p' := by
  cases j with
  | zero => exact ⟨x, p, rfl, rfl, rfl⟩
  | succ j => exact ⟨op, p.set j x, rfl, List.length_set, by simp [frame, List.set_append_left _ _ hj]⟩

/-- Settles O27: the damaged frame is itself a frame. -/
theorem corruptedPayloadIsNotDetected : Obligations.CorruptedPayloadIsNotDetected := by
  intro s f k x op p hwf hrest hf hmin hmax
  obtain ⟨hfits, rfl⟩ := eq_frame_of_validate hf
  obtain ⟨j, rfl⟩ := Nat.exists_eq_add_of_le' hmin
  have hj : j ≤ p.length := by rw [frame_length] at hmax; omega
  obtain ⟨op', p', hbody, hlength, hset⟩ := set_body_frame s.cfg op x p hj
  refine ⟨op', p', hbody, ?_⟩
  rw [hset]
  exact deliversFrame_frame hwf hrest (by rwa [fitsPayload, hlength])

/-! ### A step that ends a response frame -/

/-- The dispatch of an opcode and payload is the meaning of the row that reads them (R105). -/
theorem exec_of_dispatch {op : Byte} {p : List Byte} {i : Instr} {s u : State} (hd : dispatch op p s = .next u)
    (hrow : decodeResponse s.cfg op p = some i) : exec i s = .next u := by
  simpa only [dispatch, hrow] using hd

/-- What decodes as a response is the frame of an opcode and payload that the instruction's row reads (R67). -/
theorem frame_of_decode_response {c : Cfg} {bs : List Byte} {i : Instr} (h : decode c .response bs = .ok i) :
    ∃ op p, fitsPayload c p ∧ bs = frame c op p ∧ decodeResponse c op p = some i := by
  obtain ⟨op, p, hvalid, ⟨hdir, _⟩ | ⟨_, hrow⟩⟩ := decode_eq_ok.mp h
  · cases hdir
  · obtain ⟨hfits, hbs⟩ := eq_frame_of_validate hvalid
    exact ⟨op, p, hfits, hbs, hrow⟩

/-- Settles O37: the poll delivers the frame, and its dispatch is the instruction's meaning. -/
theorem pollOfAWholeFrameRunsItsResponse : Obligations.PollOfAWholeFrameRunsItsResponse := by
  intro s rest i hwf hrest hops hdecode
  obtain ⟨op, p, hfits, hrx, hrow⟩ := frame_of_decode_response hdecode
  obtain ⟨u, t, hd, hpoll, htail⟩ :=
    deliversFrame_frame (s := { s with env := { s.env with rx := [], ops := rest } }) (op := op) hwf hrest hfits
  refine ⟨u, t, ?_, ?_, htail⟩
  · simpa [appliedState] using exec_of_dispatch hd hrow
  · rw [step_of_ops hops, popOp_of_ops hops, ← hpoll, ← hrx]; rfl

/-- Settles O36: the frame that the registers hold has the buffered body, which the EOM byte dispatches. -/
theorem stepOnTheLastByteRunsTheResponse : Obligations.StepOnTheLastByteRunsTheResponse := by
  intro s rest i hwf hok hst hops hdecode
  obtain ⟨op, p, _, hframe, hrow⟩ := frame_of_decode_response hdecode
  have hbody : s.parser.body = op :: p := by
    rw [frame_eq_frameBeforeEom] at hframe
    have hheld := List.append_cancel_right hframe
    simp only [List.cons_append, List.nil_append, frameBeforeEom, List.cons.injEq, true_and] at hheld
    exact hheld.2
  obtain ⟨op', p', u, hbody', hd, hstep⟩ :=
    rxStep_dispatch (s := { s with env := { s.env with ops := rest } }) hok hst rfl
  cases hbody.symm.trans hbody'
  exact ⟨u, exec_of_dispatch hd hrow, by rw [step_of_ops hops, popOp_of_ops hops]; exact hstep⟩

end Sys2Proof.Machine

/-! PROOFS of the family 42_status_dispatch: which row `Dispatch` runs, and what each response does to the status model. Each
row's effect is said once, case by case of its payload, as the status model and the events it applies. -/

namespace Sys2Proof.Machine

/-! ### The row that `Dispatch` runs -/

/-- `Dispatch` of a response's own opcode and payload is its meaning: the response opcodes are distinct (R6, R105). -/
theorem dispatch_opcodeOf {i : Instr} {s : State} (hops : s.cfg.responseOpcodes.Nodup) (hi : i.direction = .response) :
    dispatch (opcodeOf s.cfg i) (payloadOf i) s = exec i.narrowed s := by
  rw [dispatch, decodeResponse_payloadOf hops hi]

theorem dispatch_unknown {op : Byte} {s : State} (p : List Byte) (hop : op ∉ s.cfg.responseOpcodes) :
    dispatch op p s = .next (s.record (.ignored op)) := by
  rw [dispatch, decodeResponse_unknown p hop]

/-- Settles O29: a row's opcode is the one `Dispatch` selects it by, and no row has an unknown one. -/
theorem dispatchRunsTheRowOrIgnores : Obligations.DispatchRunsTheRowOrIgnores := by
  rintro s op p ⟨-, -, -, -, -, -, -, -, hops, -⟩
  refine ⟨?version, ?info, ?report, ?status, dispatch_unknown p⟩
  case version => rintro rfl; exact dispatch_opcodeOf (i := .rspVersionString p) hops rfl
  case info => rintro rfl; exact dispatch_opcodeOf (i := .rspSystemInfo p) hops rfl
  case report => rintro rfl; exact dispatch_opcodeOf (i := .rspTrackReport p) hops rfl
  case status => rintro rfl; exact dispatch_opcodeOf (i := .rspStatus p) hops rfl

/-! ### Version and sys-info -/

/-- Settles O30: `ApplyVersion` has no other case. -/
theorem versionResponseReplacesTheVersion : Obligations.VersionResponseReplacesTheVersion := fun _ _ => rfl

theorem exec_rspSystemInfo_short {p : List Byte} (s : State) (hp : p.length < 3) :
    exec (.rspSystemInfo p) s =
      .next (appliedState s { s.status with lenErr := true } [.lenError s.cfg.opRspSystemInfo]) := by
  match p with
  | [] | [_] | [_, _] => rfl
  | _ :: _ :: _ :: _ => simp at hp; omega

/-- Settles O31: the track count is the two bytes' little-endian value. -/
theorem sysInfoResponseStoresTheCounts : Obligations.SysInfoResponseStoresTheCounts := by
  refine fun s p => ⟨?_, fun hp => exec_rspSystemInfo_short s hp⟩
  rintro voices t0 t1 rest rfl
  exact ⟨le16 t0 t1, le16_toNat t0 t1, rfl⟩

/-! ### Track reports -/

theorem exec_rspTrackReport_short {p : List Byte} (s : State) (hp : p.length < 4) :
    exec (.rspTrackReport p) s =
      .next (appliedState s { s.status with lenErr := true } [.lenError s.cfg.opRspTrackReport]) := by
  match p with
  | [] | [_] | [_, _] | [_, _, _] => rfl
  | _ :: _ :: _ :: _ :: _ => simp at hp; omega

/-- A report for a voice out of range is dispatched and changes no register (R108). -/
theorem exec_rspTrackReport_of_le {s : State} {v : Byte} (t0 t1 x : Byte) (rest : List Byte)
    (hv : s.cfg.numVoices ≤ v.toNat) :
    exec (.rspTrackReport (t0 :: t1 :: v :: x :: rest)) s =
      .next (appliedState s s.status [.dispatched s.cfg.opRspTrackReport (t0 :: t1 :: v :: x :: rest)]) := by
  rw [exec, execRspTrackReport, if_pos hv]; rfl

/-- A report for a voice of the table is `UpdateVoice` of that voice (R108). -/
theorem exec_rspTrackReport_of_lt {s : State} {v : Byte} (t0 t1 x : Byte) (rest : List Byte)
    (hv : ¬ s.cfg.numVoices ≤ v.toNat) :
    exec (.rspTrackReport (t0 :: t1 :: v :: x :: rest)) s =
      .next (appliedState s
        { s.status with voice := updateVoice s.status.voice v.toNat (exposedTrack t0 t1) x }
        [.dispatched s.cfg.opRspTrackReport (t0 :: t1 :: v :: x :: rest)]) := by
  rw [exec, execRspTrackReport, if_neg hv]; rfl

/-- The cases of R109, the nonzero state byte first: a start, a stop of the track held, a stale stop. -/
theorem updateVoice_eq (table : List (Option TrackNo)) (v : Nat) (t : TrackNo) (x : Byte) :
    updateVoice table v t x =
      if x ≠ 0 then table.set v (some t) else if table[v]? = some (some t) then table.set v none else table :=
  (ite_not ..).symm

/-- Settles O32: the voice is out of range or goes through `UpdateVoice`, with the track exact in 17 bits. -/
theorem trackReportUpdatesOneVoice : Obligations.TrackReportUpdatesOneVoice := by
  refine fun s p => ⟨?_, fun hp => exec_rspTrackReport_short s hp⟩
  rintro t0 t1 v x rest rfl
  refine ⟨exposedTrack t0 t1, by rw [exposedTrack_toNat, le16_toNat], ?_⟩
  by_cases hv : s.cfg.numVoices ≤ v.toNat
  · rw [exec_rspTrackReport_of_le t0 t1 x rest hv, if_pos hv]
  · rw [exec_rspTrackReport_of_lt t0 t1 x rest hv, if_neg hv, updateVoice_eq]

/-! ### Status responses -/

/-- Entry `i` of a status payload is its `i`-th whole pair of bytes (R110). -/
theorem le16List_getElem? {p : List Byte} {i : Nat} {b0 b1 : Byte} (h0 : p[2 * i]? = some b0)
    (h1 : p[2 * i + 1]? = some b1) : (le16List p)[i]? = some (le16 b0 b1) := by
  induction p using le16List.induct generalizing i with
  | case1 a0 a1 rest ih =>
    cases i with
    | zero => cases h0; cases h1; rfl
    | succ i => exact ih h0 h1
  | case2 a => simp at h1
  | case3 => simp at h0

theorem exec_rspStatus_odd {p : List Byte} (s : State) (hp : p.length % 2 = 1) :
    exec (.rspStatus p) s =
      .next (appliedState s
        { s.status with playing := (le16List p).take s.cfg.playingCap, statusRcvd := true, lenErr := true }
        [.lenError s.cfg.opRspStatus, .dispatched s.cfg.opRspStatus p]) := by
  simp only [exec, execRspStatus, flagOddStatus, if_pos hp, flagLength, appliedState, State.record, State.setStatus,
    List.append_assoc]
  rfl

theorem exec_rspStatus_even {p : List Byte} (s : State) (hp : ¬ p.length % 2 = 1) :
    exec (.rspStatus p) s =
      .next (appliedState s { s.status with playing := (le16List p).take s.cfg.playingCap, statusRcvd := true }
        [.dispatched s.cfg.opRspStatus p]) := by
  rw [exec, execRspStatus, flagOddStatus, if_neg hp]; rfl

/-- Settles O33: the entries are the payload's whole pairs up to the capacity, and only an odd length is flagged. -/
theorem statusResponseReplacesThePlayingList : Obligations.StatusResponseReplacesThePlayingList := by
  refine fun s p => ⟨(le16List p).take s.cfg.playingCap, ?length, ?entries, ?outcome⟩
  case length => rw [List.length_take, le16List_length, Nat.min_comm]
  case entries =>
    intro i b0 b1 hi h0 h1
    have hcap : i < s.cfg.playingCap := hi.trans_le (List.length_take_le ..)
    exact ⟨le16 b0 b1, by rw [List.getElem?_take_of_lt hcap, le16List_getElem? h0 h1], le16_toNat b0 b1⟩
  case outcome =>
    by_cases hp : p.length % 2 = 1
    · simp only [exec_rspStatus_odd s hp, if_pos hp]
    · simp only [exec_rspStatus_even s hp, if_neg hp]

end Sys2Proof.Machine

/-! PROOFS of the family 43_command_encoders: the frame each command sends, the cross-fade's four frames, the named
operations, and a query's request and wait. A command, a cross-fade and a query's request rest on what `SendFrame` does with
the next write; a query's wait rests on one equation for an iteration. -/

namespace Sys2Proof.Machine

/-! ### What one command sends -/

/-- With the write failing, a command leaves part of its encoding on the wire and answers `TransportFailure` (R133). -/
theorem exec_command_failed {s : State} {i : Instr} {n : Nat} (hc : s.cfg.wf) (hi : i.direction = .command)
    (hwrite : s.env.nextWrite = .fail n) : exec i s = .next (failedState s (encode s.cfg i) n) := by
  rw [exec_command hi, sendCommand, sendFrame_fail (fitsPayload_of_command hc hi) hwrite]
  rfl

theorem sendsExactly_encode {s : State} {i : Instr} (hc : s.cfg.wf) (hi : i.direction = .command) :
    SendsExactly s i (encode s.cfg i) :=
  ⟨exec_command_sent hc hi, fun _ => exec_command_failed hc hi⟩

/-- A truth value is written as 1 or 0 (R63). -/
theorem byte_bool (b : Bool) : (Bool8.bool b).byte = if b then 1 else 0 := by cases b <;> rfl

/-- Settles O10: the bytes are the encoding's, the lock operand in either form. -/
theorem trackControlCommandsSendTheirFrames : Obligations.TrackControlCommandsSendTheirFrames := by
  intro s code track n b hc
  rw [← byte_bool b]
  exact ⟨sendsExactly_encode hc rfl, sendsExactly_encode hc rfl, sendsExactly_encode hc rfl⟩

/-- Settles O11: the bytes are the encoding's. -/
theorem gainAndOffsetCommandsSendTheirFrames : Obligations.GainAndOffsetCommandsSendTheirFrames := fun _ _ _ _ hc =>
  ⟨sendsExactly_encode hc rfl, sendsExactly_encode hc rfl, sendsExactly_encode hc rfl⟩

/-- Settles O12: the bytes are the encoding's, the stop operand in either form. -/
theorem trackFadeSendsItsFrame : Obligations.TrackFadeSendsItsFrame := by
  intro s track gain timeMs n b hc
  rw [← byte_bool b]
  exact ⟨sendsExactly_encode hc rfl, sendsExactly_encode hc rfl⟩

/-- Settles O13: the encoding of a row without operands is the frame of an empty payload. -/
theorem operandlessCommandsSendTheirFrames : Obligations.OperandlessCommandsSendTheirFrames := fun _ hc =>
  ⟨sendsExactly_encode hc rfl, sendsExactly_encode hc rfl, sendsExactly_encode hc rfl, sendsExactly_encode hc rfl,
    sendsExactly_encode hc rfl⟩

/-- Settles O14: the bytes are the encoding's, the enable operand in either form. -/
theorem oneByteCommandsSendTheirFrames : Obligations.OneByteCommandsSendTheirFrames := by
  intro s n b hc
  rw [← byte_bool b]
  exact ⟨sendsExactly_encode hc rfl, sendsExactly_encode hc rfl, sendsExactly_encode hc rfl, sendsExactly_encode hc rfl,
    sendsExactly_encode hc rfl⟩

/-! ### Narrowed operands -/

theorem p8_u8 (v : Int) : p8 (u8 v).toNat = p8 v := congrArg (fun b => [b]) (u8_natCast (u8 v))

theorem p16_u16 (v : Int) : p16 (u16 v).toNat = p16 v := congrArg (fun w => [lo8 w, hi8 w]) (u16_natCast (u16 v))

theorem pBool_narrowed (v : Bool8) : pBool v.narrowed = pBool v := pBool_readBool8 v.byte

theorem opcodeOf_narrowed (c : Cfg) (i : Instr) : opcodeOf c i.narrowed = opcodeOf c i := by cases i <;> rfl

theorem direction_narrowed (i : Instr) : i.narrowed.direction = i.direction := by cases i <;> rfl

/-- Packing narrows: a narrowed operand has the bytes of the operand (R82). -/
theorem payloadOf_narrowed (i : Instr) : payloadOf i.narrowed = payloadOf i := by
  cases i <;> simp only [Instr.narrowed, payloadOf, p8_u8, p16_u16, pBool_narrowed]

theorem encode_narrowed (c : Cfg) (i : Instr) : encode c i.narrowed = encode c i := by
  rw [encode, opcodeOf_narrowed, payloadOf_narrowed, encode]

/-- A response's operand is its payload, which nothing narrows (R67). -/
theorem narrowed_of_response {i : Instr} (hi : i.direction = .response) : i.narrowed = i := by
  cases i with
  | rspVersionString | rspSystemInfo | rspStatus | rspTrackReport => rfl
  | _ => cases hi

theorem exec_narrowed (i : Instr) (s : State) : exec i.narrowed s = exec i s := by
  cases hi : i.direction with
  | command =>
    rw [exec_command hi, exec_command ((direction_narrowed i).trans hi), opcodeOf_narrowed, payloadOf_narrowed]
  | response => rw [narrowed_of_response hi]

/-- Settles O15: a command is its opcode and its payload's bytes, and narrowing changes neither. -/
theorem outOfRangeOperandsAreWrappedNotRefused : Obligations.OutOfRangeOperandsAreWrappedNotRefused := by
  refine ⟨fun i s => (exec_narrowed i s).symm, fun i s hc hi => ?_⟩
  rw [encode_narrowed]
  exact sendsExactly_encode hc hi

/-! ### Frames sent one after another -/

theorem nextWrite_of_open {e : Env} (h : e.transport ≠ none) : e.nextWrite = e.writeAnswers.headD .ok := by
  obtain ⟨l, hl⟩ := Option.ne_none_iff_exists'.mp h
  rw [Env.nextWrite, hl]
  cases e.writeAnswers <;> rfl

theorem nextWrite_of_closed {e : Env} (h : e.transport = none) : ∃ n, e.nextWrite = .fail n := by
  rw [Env.nextWrite, h]
  rcases e.writeAnswers with _ | ⟨_ | n, _⟩
  · exact ⟨0, rfl⟩
  · exact ⟨0, rfl⟩
  · exact ⟨n, rfl⟩

/-- `s` after each frame in turn was accepted whole by the transport. -/
def State.wroteAll (s : State) (fs : List (List Byte)) : State :=
  { s with env := { s.env with
      tx := s.env.tx ++ fs.flatten
      writeAnswers := s.env.writeAnswers.drop fs.length
      trace := s.env.trace ++ fs.map .sent } }

@[simp] theorem wroteAll_nil (s : State) : s.wroteAll [] = s := by simp [State.wroteAll]

theorem wroteAll_cons (s : State) (f : List Byte) (fs : List (List Byte)) :
    s.wroteAll (f :: fs) = (s.wrote f).wroteAll fs := by
  simp [State.wroteAll, State.wrote]

/-- The frames of opcodes and payloads. -/
def framesOf (c : Cfg) (fs : List (Byte × List Byte)) : List (List Byte) := fs.map fun f => frame c f.1 f.2

theorem sendAll_cons_sent {f : Byte × List Byte} {s : State} (rest : List (Byte × List Byte))
    (hfits : fitsPayload s.cfg f.2) (hwrite : s.env.nextWrite = .ok) :
    sendAll (f :: rest) s = sendAll rest (s.wrote (frame s.cfg f.1 f.2)) := by
  rw [sendAll, sendFrame_ok hfits hwrite]

theorem sendAll_cons_failed {f : Byte × List Byte} {s : State} {n : Nat} (rest : List (Byte × List Byte))
    (hfits : fitsPayload s.cfg f.2) (hwrite : s.env.nextWrite = .fail n) :
    sendAll (f :: rest) s = (.transportFailure, s.writeFailed (frame s.cfg f.1 f.2) n) := by
  rw [sendAll, sendFrame_fail hfits hwrite]

/-- With every write accepted all frames are sent, in order (R131). -/
theorem sendAll_sent (fs : List (Byte × List Byte)) : ∀ {s : State}, (∀ f ∈ fs, fitsPayload s.cfg f.2) →
    s.env.transport ≠ none → (∀ a ∈ s.env.writeAnswers.take fs.length, a = .ok) →
    sendAll fs s = (.ok, s.wroteAll (framesOf s.cfg fs)) := by
  induction fs with
  | nil => intro s _ _ _; exact congrArg (Prod.mk _) (wroteAll_nil s).symm
  | cons f fs ih =>
    intro s hfits hopen hok
    obtain ⟨hf, hfs⟩ := List.forall_mem_cons.mp hfits
    have hwrite : s.env.nextWrite = .ok ∧ ∀ a ∈ s.env.writeAnswers.tail.take fs.length, a = .ok := by
      rw [nextWrite_of_open hopen]
      cases ha : s.env.writeAnswers with
      | nil => simp
      | cons a as => rw [ha] at hok; exact List.forall_mem_cons.mp hok
    rw [sendAll_cons_sent fs hf hwrite.1, framesOf, List.map_cons, wroteAll_cons]
    exact ih (s := s.wrote (frame s.cfg f.1 f.2)) hfs hopen hwrite.2

/-- When write `k` is the first that fails, the frames before it are sent and none after it (R131, R133). -/
theorem sendAll_failed {n : Nat} {answers : List WriteAnswer} {f : List Byte} (fs : List (Byte × List Byte)) :
    ∀ {s : State} {k : Nat}, (∀ g ∈ fs, fitsPayload s.cfg g.2) → s.env.transport ≠ none →
    s.env.writeAnswers = List.replicate k .ok ++ .fail n :: answers → (framesOf s.cfg fs)[k]? = some f →
    sendAll fs s = (.transportFailure, (s.wroteAll ((framesOf s.cfg fs).take k)).writeFailed f n) := by
  induction fs with
  | nil => intro s k _ _ _ hf; cases hf
  | cons g gs ih =>
    intro s k hfits hopen hanswers hf
    obtain ⟨hg, hgs⟩ := List.forall_mem_cons.mp hfits
    cases k with
    | zero =>
      have hwrite : s.env.nextWrite = .fail n := by rw [nextWrite_of_open hopen, hanswers]; rfl
      cases hf
      rw [sendAll_cons_failed gs hg hwrite, List.take_zero, wroteAll_nil]
    | succ k =>
      have hwrite : s.env.nextWrite = .ok := by rw [nextWrite_of_open hopen, hanswers]; rfl
      rw [sendAll_cons_sent gs hg hwrite, framesOf, List.map_cons, List.take_succ_cons, wroteAll_cons]
      exact ih (s := s.wrote (frame s.cfg g.1 g.2)) hgs hopen (congrArg List.tail hanswers) hf

/-! ### The cross-fade -/

theorem framesOf_crossfadeFrames (c : Cfg) (source target gain time : Int) :
    framesOf c (crossfadeFrames c source target gain time) = crossfadeBytes c source target gain time := by
  have hatten : u16 c.xfadeAtten.toInt = c.xfadeAtten := BitVec.ofInt_toInt
  simp [framesOf, crossfadeFrames, crossfadeBytes, frame, p8, p16, pBool, Bool8.byte, u8_natCast, hatten]

theorem fitsPayload_crossfadeFrames {c : Cfg} (hc : c.wf) (source target gain time : Int) :
    ∀ f ∈ crossfadeFrames c source target gain time, fitsPayload c f.2 := by
  have hmin := hc.1
  simp only [crossfadeFrames, List.forall_mem_cons, fitsPayload, List.length_append, length_p8, length_p16, length_pBool]
  exact ⟨by omega, by omega, by omega, by omega, List.forall_mem_nil _⟩

theorem crossfade_eq {source target gain time : Int} {s t : State} {r : SendResult}
    (h : sendAll (crossfadeFrames s.cfg source target gain time) s = (r, t)) :
    runOp (.crossfade source target gain time) s = .next (t.answer (.send r)) := by
  rw [runOp, crossfade, h]

/-- Settles O48: the frames before a failing write are a list whose writes are all accepted. -/
theorem crossfadeSendsInOrderAndStopsAtAFailure : Obligations.CrossfadeSendsInOrderAndStopsAtAFailure := by
  intro s source target gain time hc
  have hfits := fitsPayload_crossfadeFrames hc source target gain time
  rw [← framesOf_crossfadeFrames]
  refine ⟨fun hopen hok => crossfade_eq (sendAll_sent _ hfits hopen hok), ?failed, ?closed⟩
  case failed =>
    intro hopen k n answers f hanswers hf
    have hlen : ((framesOf s.cfg (crossfadeFrames s.cfg source target gain time)).take k).length = k :=
      List.length_take_of_le (List.getElem?_eq_some_iff.mp hf).1.le
    rw [crossfade_eq (sendAll_failed _ hfits hopen hanswers hf)]
    simp [State.wroteAll, State.writeFailed, State.answer, hanswers, hlen]
  case closed =>
    intro hclosed
    obtain ⟨n, hwrite⟩ := nextWrite_of_closed hclosed
    exact ⟨n, _, rfl, crossfade_eq (sendAll_cons_failed _ (hfits _ List.mem_cons_self) hwrite)⟩

/-! ### Named operations -/

/-- Settles O49: a named operation is `exec` of the command it expands to, one equation per operation. -/
theorem namedOperationsAreSingleCommands : Obligations.NamedOperationsAreSingleCommands := fun _ _ _ _ _ =>
  ⟨rfl, rfl, rfl, rfl, rfl, rfl, rfl, rfl, rfl, rfl, rfl, rfl, rfl, rfl, rfl, rfl, rfl⟩

/-! ### A query's request -/

theorem fitsPayload_nil {c : Cfg} (hc : c.wf) : fitsPayload c [] := (by decide : 5 ≤ 12).trans hc.1

/-- With its request accepted a query is the wait that follows (R134). -/
theorem query_eq_queryLoop {k : QueryKind} {s : State} (hc : s.cfg.wf) (hwrite : s.env.nextWrite = .ok) :
    query k s = queryLoop k s.env.waitTurns (s.wrote (frame s.cfg (requestOpcode s.cfg k) [])) := by
  rw [query, sendFrame_ok (fitsPayload_nil hc) hwrite]
  rfl

/-- Settles O53: `SendFrame` fails and the wait is not begun. -/
theorem queryWithoutARequestPollsNothing : Obligations.QueryWithoutARequestPollsNothing := by
  intro s k n hc hwrite
  rw [query, sendFrame_fail (fitsPayload_nil hc) hwrite]
  rfl

/-! ### A query's wait

An iteration leaves the block and the trace as the poll of its bytes leaves them, the transport with the late bytes and the
rest of the script. -/

/-- `m` with the transport holding `rx` and the script of a wait going on with `turns`. -/
def State.awaiting (m : State) (rx : List Byte) (turns : List WaitTurn) : State :=
  { m with env := { m.env with rx := rx, waitTurns := turns } }

@[simp] theorem awaiting_status (m : State) (rx : List Byte) (turns : List WaitTurn) :
    (m.awaiting rx turns).status = m.status := rfl
@[simp] theorem awaiting_env_tx (m : State) (rx : List Byte) (turns : List WaitTurn) :
    (m.awaiting rx turns).env.tx = m.env.tx := rfl
@[simp] theorem awaiting_env_replies (m : State) (rx : List Byte) (turns : List WaitTurn) :
    (m.awaiting rx turns).env.replies = m.env.replies := rfl

/-- What a query returns when its wait is over (R134, R135). -/
def queryAnswer (x : Status) (k : QueryKind) : QueryResult := if x.flag k then queryValue x k else .unavailable

/-- One iteration of the wait, in terms of the bytes it polls. -/
theorem queryLoop_cons_eq (k : QueryKind) (rest : List WaitTurn) {turn : WaitTurn} {s m : State}
    (hpoll : pollBytes (s.env.rx ++ turn.arrivals) s = .next m) :
    queryLoop k (turn :: rest) s = endTurn k turn.elapsed (queryLoop k rest) (m.awaiting turn.late rest) := by
  obtain ⟨evs, henv, hpoll'⟩ := pollBytes_uniform _ { (beginTurn turn rest s).env with rx := [] } hpoll
  rw [queryLoop, pollTransport]
  refine (congrArg (andThen · _) hpoll').trans ?_
  rw [State.awaiting, henv]
  rfl

/-- The iteration past the script's end (assumption 5). -/
theorem queryLoop_nil_eq (k : QueryKind) {s m : State} (hpoll : pollBytes s.env.rx s = .next m) :
    queryLoop k [] s = .next (finishQuery k (queryAnswer m.status k) (m.awaiting [] s.env.waitTurns)) := by
  obtain ⟨evs, henv, hpoll'⟩ := pollBytes_uniform _ { s.env with rx := [] } hpoll
  rw [queryLoop, pollTransport]
  refine (congrArg (andThen · _) hpoll').trans ?_
  rw [State.awaiting, henv]
  rfl

section

variable {k : QueryKind} {elapsed : Bool} {goOn : State → Host.Outcome State Fault Refusal} {s : State}

theorem endTurn_of_flag (h : s.status.flag k = true) :
    endTurn k elapsed goOn s = .next (finishQuery k (queryValue s.status k) s) := if_pos h

theorem endTurn_of_elapsed (h : s.status.flag k = false) (he : elapsed = true) :
    endTurn k elapsed goOn s = .next (finishQuery k .unavailable s) := by simp [endTurn, h, he]

theorem endTurn_of_not_elapsed (h : s.status.flag k = false) (he : elapsed = false) :
    endTurn k elapsed goOn s = goOn s := by simp [endTurn, h, he]

end

/-- In the invariant a poll goes on, within the invariant (R100). -/
theorem pollBytes_answers (bs : List Byte) : ∀ {s : State}, s.Inv → ∃ m, pollBytes bs s = .next m ∧ m.Inv := by
  induction bs with
  | nil => intro s h; exact ⟨s, rfl, h⟩
  | cons b bs ih =>
    intro s h
    obtain ⟨u, hstep, _⟩ := rxStepIsTotalOnTheInvariant s b h.1 h.2.1
    obtain ⟨m, hpoll, hm⟩ := ih (rxStep_keeps_inv h hstep)
    exact ⟨m, by rw [pollBytes_cons, hstep, andThen_next, hpoll], hm⟩

/-- A poll sends nothing and returns nothing to the host. -/
theorem pollBytes_outputs {bs : List Byte} {s m : State} (h : pollBytes bs s = .next m) :
    m.env.tx = s.env.tx ∧ m.env.replies = s.env.replies := by
  obtain ⟨_, evs, henv⟩ := pollBytes_frame bs h
  rw [henv]
  exact ⟨rfl, rfl⟩

/-- The wait ends, sends nothing and answers from the flag as it then is (R134, R154). -/
theorem queryLoop_answers (k : QueryKind) (turns : List WaitTurn) : ∀ {s : State}, s.Inv →
    ∃ t, queryLoop k turns s = .next t ∧ t.env.tx = s.env.tx ∧
      t.env.replies = s.env.replies ++ [.query k (queryAnswer t.status k)] := by
  induction turns with
  | nil =>
    intro s h
    obtain ⟨m, hpoll, _⟩ := pollBytes_answers s.env.rx h
    obtain ⟨htx, hreplies⟩ := pollBytes_outputs hpoll
    exact ⟨_, queryLoop_nil_eq k hpoll, htx, by simp [hreplies]⟩
  | cons turn rest ih =>
    intro s h
    obtain ⟨m, hpoll, hm⟩ := pollBytes_answers (s.env.rx ++ turn.arrivals) h
    obtain ⟨htx, hreplies⟩ := pollBytes_outputs hpoll
    rw [queryLoop_cons_eq k rest hpoll, ← htx, ← hreplies]
    cases hflag : m.status.flag k with
    | true => exact ⟨_, endTurn_of_flag hflag, rfl, by simp [queryAnswer, hflag]⟩
    | false =>
      cases he : turn.elapsed with
      | true => exact ⟨_, endTurn_of_elapsed hflag rfl, rfl, by simp [queryAnswer, hflag]⟩
      | false =>
        rw [endTurn_of_not_elapsed (s := m.awaiting turn.late rest) hflag rfl]
        exact ih hm

/-- A query whose request was sent ends, with nothing else on the wire. -/
theorem query_answers (k : QueryKind) {s : State} (h : s.Inv) (hwrite : s.env.nextWrite = .ok) :
    ∃ t, query k s = .next t ∧ t.env.tx = s.env.tx ++ frame s.cfg (requestOpcode s.cfg k) [] ∧
      t.env.replies = s.env.replies ++ [.query k (queryAnswer t.status k)] := by
  rw [query_eq_queryLoop h.1 hwrite]
  exact queryLoop_answers k _ (s := s.wrote _) h

/-- Settles O51: the three kinds of one statement, the request's frame and the answer written out. -/
theorem queryEndsAndAnswersFromItsFlag : Obligations.QueryEndsAndAnswersFromItsFlag := fun _ h hwrite =>
  ⟨query_answers .version h hwrite, query_answers .sysInfo h hwrite, query_answers .status h hwrite⟩

/-- The wait of a query whose request was sent, the first iteration in terms of what it polls from where the query began:
sending the request wrote nothing a poll looks at. -/
theorem query_firstTurn {k : QueryKind} {turn : WaitTurn} {rest : List WaitTurn} {s m : State} (hc : s.cfg.wf)
    (hwrite : s.env.nextWrite = .ok) (hturns : s.env.waitTurns = turn :: rest)
    (hpoll : pollBytes (s.env.rx ++ turn.arrivals) s = .next m) :
    ∃ w, query k s = endTurn k turn.elapsed (queryLoop k rest) w ∧ SameBlock m w ∧ w.env.rx = turn.late ∧
      w.env.waitTurns = rest ∧ w.env.replies = s.env.replies := by
  obtain ⟨evs, _, hpoll'⟩ := pollBytes_uniform _ (s.wrote (frame s.cfg (requestOpcode s.cfg k) [])).env hpoll
  rw [query_eq_queryLoop hc hwrite, hturns]
  exact ⟨_, queryLoop_cons_eq k rest (s := s.wrote _) hpoll', ⟨rfl, rfl, rfl⟩, rfl, rfl, rfl⟩

/-- The same query made where a wait stands is that wait: another request writes nothing the wait looks at. -/
theorem query_of_queryLoop {k : QueryKind} {s w t : State} (hc : s.cfg.wf) (hwrite : s.env.nextWrite = .ok)
    (hblock : SameBlock w s) (hrx : w.env.rx = s.env.rx) (hreplies : w.env.replies = s.env.replies)
    (hturns : w.env.waitTurns = s.env.waitTurns) (hend : queryLoop k s.env.waitTurns w = .next t)
    (htx : t.env.tx = s.env.tx ++ frame s.cfg (requestOpcode s.cfg k) []) :
    ∃ u, query k s = .next u ∧ SameBlock u t ∧ t.env.rx = u.env.rx ∧ t.env.waitTurns = u.env.waitTurns ∧
      t.env.replies = u.env.replies ∧ t.env.tx = u.env.tx := by
  obtain ⟨u, hu, htu, hrx', hreplies', hturns', htx'⟩ :=
    queryLoop_congr k s.env.waitTurns (s' := s.wrote (frame s.cfg (requestOpcode s.cfg k) [])) hblock hrx.symm
      hreplies.symm hturns.symm hend
  exact ⟨u, (query_eq_queryLoop hc hwrite).trans hu, sameBlock_symm htu, hrx'.symm, hturns'.symm, hreplies'.symm,
    htx.trans htx'.symm⟩

/-- Settles O52: the first iteration ends in one of three ways; when it goes on, the wait does from there what it does after
another request, which writes nothing the wait looks at. -/
theorem queryIterationTestsTheFlagThenTheBound : Obligations.QueryIterationTestsTheFlagThenTheBound := by
  intro s k turn rest h hwrite hturns
  obtain ⟨m, hpoll, hm⟩ := pollBytes_answers (s.env.rx ++ turn.arrivals) h
  obtain ⟨hcfg, _⟩ := pollBytes_frame _ hpoll
  obtain ⟨t, ht, htx, _⟩ := query_answers k h hwrite
  obtain ⟨w, hw, hblock, hrx, hrest, hreplies⟩ := query_firstTurn (k := k) h.1 hwrite hturns hpoll
  have hend := hw.symm.trans ht
  have hstatus : w.status = m.status := hblock.2.2
  refine ⟨m, t, hpoll, ht, fun hflag => ?_, fun hflag he => ?_, fun hflag he => ?_⟩ <;> rw [← hstatus] at hflag
  · rw [endTurn_of_flag hflag] at hend
    cases hend
    exact ⟨hblock, hrx, hrest, by simp [hreplies, hstatus]⟩
  · rw [endTurn_of_elapsed hflag he] at hend
    cases hend
    exact ⟨hblock, hrx, hrest, by simp [hreplies]⟩
  · rw [endTurn_of_not_elapsed hflag he] at hend
    exact query_of_queryLoop hm.1 hwrite (sameBlock_symm hblock) hrx hreplies hrest hend (hcfg ▸ htx)

theorem flag_of_flagsKept {x y : Status} (h : FlagsKept x y) {k : QueryKind} (hx : x.flag k = true) :
    y.flag k = true := by
  cases k with
  | version => exact h.versionRcvd hx
  | sysInfo => exact h.sysinfoRcvd hx
  | status => exact h.statusRcvd hx

/-- With the flag set the wait is one iteration, whatever arrives: no received byte clears the flag (R135, R157). -/
theorem queryLoop_sticky {k : QueryKind} {s : State} (h : s.Inv) (hflag : s.status.flag k = true) :
    ∃ t, queryLoop k s.env.waitTurns s = .next t ∧ t.env.waitTurns = s.env.waitTurns.tail ∧
      t.env.replies = s.env.replies ++ [.query k (queryValue t.status k)] := by
  cases hturns : s.env.waitTurns with
  | nil =>
    obtain ⟨m, hpoll, _⟩ := pollBytes_answers s.env.rx h
    have hreplies := (pollBytes_outputs hpoll).2
    have hflag' : m.status.flag k = true := flag_of_flagsKept (pollBytes_flagsKept _ hpoll) hflag
    exact ⟨_, queryLoop_nil_eq k hpoll, hturns, by simp [hreplies, queryAnswer, hflag']⟩
  | cons turn rest =>
    obtain ⟨m, hpoll, _⟩ := pollBytes_answers (s.env.rx ++ turn.arrivals) h
    have hreplies := (pollBytes_outputs hpoll).2
    have hflag' : (m.awaiting turn.late rest).status.flag k = true :=
      flag_of_flagsKept (pollBytes_flagsKept _ hpoll) hflag
    exact ⟨_, (queryLoop_cons_eq k rest hpoll).trans (endTurn_of_flag hflag'), rfl, by simp [hreplies]⟩

/-- Settles O54: sending the request leaves the flag, the script and the values returned as they were. -/
theorem stickyFlagAnswersAfterOnePoll : Obligations.StickyFlagAnswersAfterOnePoll := by
  intro s k h hwrite hflag
  rw [query_eq_queryLoop h.1 hwrite]
  exact queryLoop_sticky (s := s.wrote _) h hflag

/-! ### A silent transport -/

/-- With the flag clear and nothing delivered, the wait ends with `unavailable` and nothing else changed (R136, R143). -/
theorem queryLoop_silent {k : QueryKind} (turns : List WaitTurn) : ∀ {s : State}, s.status.flag k = false →
    s.env.rx = [] → (∀ turn ∈ turns, turn.arrivals = [] ∧ turn.late = []) →
    ∃ rest, queryLoop k turns s = .next (finishQuery k .unavailable (s.awaiting [] rest)) := by
  induction turns with
  | nil =>
    intro s hflag hrx _
    have hpoll : pollBytes s.env.rx s = .next s := by rw [hrx]; rfl
    refine ⟨s.env.waitTurns, ?_⟩
    rw [queryLoop_nil_eq k hpoll]
    simp [queryAnswer, hflag]
  | cons turn rest ih =>
    intro s hflag hrx hsilent
    obtain ⟨⟨harrivals, hlate⟩, hrest⟩ := List.forall_mem_cons.mp hsilent
    have hpoll : pollBytes (s.env.rx ++ turn.arrivals) s = .next s := by rw [hrx, harrivals]; rfl
    rw [queryLoop_cons_eq k rest hpoll, hlate]
    cases he : turn.elapsed with
    | true => exact ⟨rest, endTurn_of_elapsed hflag rfl⟩
    | false =>
      rw [endTurn_of_not_elapsed (s := s.awaiting [] rest) hflag rfl]
      exact ih (s := s.awaiting [] rest) hflag rfl hrest

/-- Settles O55: no iteration receives a byte, so each leaves the flag clear and the last one answers. -/
theorem silentTransportTimesTheQueryOut : Obligations.SilentTransportTimesTheQueryOut := by
  intro s k hc hwrite hflag hrx hsilent
  obtain ⟨rest, hend⟩ := queryLoop_silent s.env.waitTurns (s := s.wrote (frame s.cfg (requestOpcode s.cfg k) []))
    hflag hrx hsilent
  refine ⟨_, (query_eq_queryLoop hc hwrite).trans hend, ⟨rfl, rfl, rfl⟩, rfl, ?_⟩
  exact List.append_assoc ..

end Sys2Proof.Machine

/-! PROOFS of the family 60_exceptions: what one `RxStep` records, and that every operation returns. The first follows the
rows of the transition table down to what a response records; the second goes operation by operation. -/

namespace Sys2Proof.Machine

/-! ### What one `RxStep` records -/

/-- The events of one outcome (R146): nothing, a drop, or what one dispatch records under configuration `c`. -/
inductive OneOutcome (c : Cfg) : List Event → Prop where
  | nothing : OneOutcome c []
  | dropped (cause : Malformation) : OneOutcome c [.dropped cause]
  | dispatched (op : Byte) (p : List Byte) : OneOutcome c [.dispatched op p]
  | ignored (op : Byte) : OneOutcome c [.ignored op]
  | lenError (op : Byte) : OneOutcome c [.lenError op]
  | oddStatus (p : List Byte) : OneOutcome c [.lenError c.opRspStatus, .dispatched c.opRspStatus p]

/-- The environment of `t` is that of `s` with one outcome recorded. -/
def RecordsOneOutcome (s t : State) : Prop :=
  ∃ evs, t.env = { s.env with trace := s.env.trace ++ evs } ∧ OneOutcome s.cfg evs

theorem recordsOneOutcome_of_env_eq {s t : State} (h : t.env = s.env) : RecordsOneOutcome s t :=
  ⟨[], by simp [h], .nothing⟩

theorem raiseMalformed_recordsOneOutcome (cause : Malformation) (s : State) :
    RecordsOneOutcome s (raiseMalformed cause s) :=
  ⟨[.dropped cause], rfl, .dropped cause⟩

/-- A response records its dispatch, or the length error that discards it; an odd status payload records both (R106 to
R110, R112). -/
theorem exec_response_recordsOneOutcome {i : Instr} {s t : State} (hi : i.direction = .response)
    (h : exec i s = .next t) : RecordsOneOutcome s t := by
  cases i with
  | rspVersionString p => cases h; exact ⟨_, rfl, .dispatched _ p⟩
  | rspSystemInfo p =>
    match p with
    | [] | [_] | [_, _] => cases h; exact ⟨_, rfl, .lenError _⟩
    | _ :: _ :: _ :: _ => cases h; exact ⟨_, rfl, .dispatched ..⟩
  | rspTrackReport p =>
    match p with
    | [] | [_] | [_, _] | [_, _, _] => cases h; exact ⟨_, rfl, .lenError _⟩
    | t0 :: t1 :: v :: x :: rest =>
      by_cases hv : s.cfg.numVoices ≤ v.toNat
      · rw [exec_rspTrackReport_of_le t0 t1 x rest hv] at h; cases h; exact ⟨_, rfl, .dispatched ..⟩
      · rw [exec_rspTrackReport_of_lt t0 t1 x rest hv] at h; cases h; exact ⟨_, rfl, .dispatched ..⟩
  | rspStatus p =>
    by_cases hp : p.length % 2 = 1
    · rw [exec_rspStatus_odd s hp] at h; cases h; exact ⟨_, rfl, .oddStatus p⟩
    · rw [exec_rspStatus_even s hp] at h; cases h; exact ⟨_, rfl, .dispatched _ p⟩
  | _ => cases hi

/-- `Dispatch` runs one response, or ignores the opcode (R105, R111). -/
theorem dispatch_recordsOneOutcome {op : Byte} {p : List Byte} {s t : State} (h : dispatch op p s = .next t) :
    RecordsOneOutcome s t := by
  unfold dispatch at h
  split at h
  next i hrow => exact exec_response_recordsOneOutcome (decodeResponse_direction hrow) h
  next => cases h; exact ⟨_, rfl, .ignored op⟩

/-- Each row of R90 leaves the environment as it was, drops the frame or dispatches it. -/
theorem rxStep_recordsOneOutcome {b : Byte} {s t : State} (h : rxStep b s = .next t) : RecordsOneOutcome s t := by
  rcases rxStep_cases b s with ⟨_, e⟩ | ⟨_, hrow⟩
  · rw [e] at h; cases h
  rcases hrow with ⟨_, _, e⟩ | ⟨_, _, e⟩ | ⟨_, _, e⟩ | ⟨_, _, e⟩ | ⟨_, _, e⟩ | ⟨_, _, e⟩ | ⟨_, e⟩ |
      ⟨_, _, _, _, _, _, _, hd, e⟩ | ⟨_, _, e⟩ <;> rw [e] at h <;> cases h
  · exact recordsOneOutcome_of_env_eq rfl
  · exact recordsOneOutcome_of_env_eq rfl
  · exact recordsOneOutcome_of_env_eq rfl
  · exact raiseMalformed_recordsOneOutcome _ s
  · exact recordsOneOutcome_of_env_eq rfl
  · exact raiseMalformed_recordsOneOutcome _ s
  · exact recordsOneOutcome_of_env_eq rfl
  · obtain ⟨evs, henv, hone⟩ := dispatch_recordsOneOutcome hd
    exact ⟨evs, henv, hone⟩
  · exact raiseMalformed_recordsOneOutcome _ s

/-- Settles O28: the constructors of `OneOutcome` are the six alternatives. -/
theorem oneRxStepRecordsOneOutcome : Obligations.OneRxStepRecordsOneOutcome := by
  intro s t b h
  obtain ⟨evs, henv, hone⟩ := rxStep_recordsOneOutcome h
  refine ⟨evs, henv, ?_⟩
  cases hone with
  | nothing => exact .inl rfl
  | dropped cause => exact .inr (.inl ⟨cause, rfl⟩)
  | dispatched op p => exact .inr (.inr (.inl ⟨op, p, rfl⟩))
  | ignored op => exact .inr (.inr (.inr (.inl ⟨op, rfl⟩)))
  | lenError op => exact .inr (.inr (.inr (.inr (.inl ⟨op, rfl⟩))))
  | oddStatus p => exact .inr (.inr (.inr (.inr (.inr ⟨p, rfl⟩))))

/-! ### Every operation returns -/

/-- A command returns whatever the transport answers (R115, R133). -/
theorem exec_command_returns {i : Instr} (hi : i.direction = .command) (s : State) : ∃ t, exec i s = .next t :=
  ⟨_, exec_command hi s⟩

theorem rxStep_returns (b : Byte) {s : State} (h : s.Inv) : ∃ t, rxStep b s = .next t := by
  obtain ⟨hwf, hok, _⟩ := h
  obtain ⟨t, hstep, _⟩ := rxStepIsTotalOnTheInvariant s b hwf hok
  exact ⟨t, hstep⟩

theorem pollTransport_returns {s : State} (h : s.Inv) : ∃ t, pollTransport s = .next t := by
  obtain ⟨t, hpoll, _⟩ := pollBytes_answers s.env.rx (s := { s with env := { s.env with rx := [] } }) h
  exact ⟨t, hpoll⟩

/-- A query ends with its wait's answer, or with the failure of its request (R133, R134). -/
theorem query_returns (k : QueryKind) {s : State} (h : s.Inv) : ∃ t, query k s = .next t := by
  cases hwrite : s.env.nextWrite with
  | ok =>
    obtain ⟨t, hend, _⟩ := query_answers k h hwrite
    exact ⟨t, hend⟩
  | fail n => exact ⟨_, queryWithoutARequestPollsNothing s k n h.1 hwrite⟩

theorem runOp_returns {op : HostOp} {s : State} (h : s.Inv) (hissue : ∀ i, op = .issue i → i.direction = .command) :
    ∃ t, runOp op s = .next t := by
  cases op with
  | rxStep b => exact rxStep_returns b h
  | poll => exact pollTransport_returns h
  | query k => exact query_returns k h
  | issue i =>
    have hi := hissue i rfl
    obtain ⟨t, he⟩ := exec_command_returns hi s
    exact ⟨t, issueCommand_eq_next.mpr ⟨hi, he⟩⟩
  | named n => exact exec_command_returns (expand_direction s.cfg n) s
  | receive bs => exact ⟨_, rfl⟩
  | crossfade a b g m => exact ⟨_, rfl⟩
  | read a => exact ⟨_, rfl⟩
  | encode o p => exact ⟨_, rfl⟩
  | validate r => exact ⟨_, rfl⟩
  | reset => exact ⟨_, rfl⟩
  | openTransport l => exact ⟨_, rfl⟩
  | discardBuffered => exact ⟨_, rfl⟩

/-- Settles O41: with no operation pending a step stays; else it runs the head of the queue, within the same invariant. -/
theorem everyOperationReturns : Obligations.EveryOperationReturns := by
  intro s h hissue
  cases hops : s.env.ops with
  | nil => exact ⟨s, by simp only [step, runNext, hops]⟩
  | cons op rest =>
    rw [step_of_ops hops]
    exact runOp_returns (s := s.popOp) h fun i hi => hissue i rest (hi ▸ hops)

end Sys2Proof.Machine

/-! PROOFS of the family 70_reset_and_hazards: a transport not yet opened, the reset input, and the discard of buffered
bytes. -/

namespace Sys2Proof.Machine

/-- Settles O16: a transport not opened fails the next write (R158), and a command whose write fails leaves no more than
that failure (R133). -/
theorem closedTransportFailsEveryCommand : Obligations.ClosedTransportFailsEveryCommand := by
  intro s i hc hi hclosed
  obtain ⟨n, hwrite⟩ := nextWrite_of_closed hclosed
  exact ⟨n, exec_command_failed hc hi hwrite⟩

/-- The reset input resets the block's registers, the environment going on with the rest of the queue (R155). -/
theorem step_reset {s : State} {rest : List HostOp} (h : s.env.ops = .reset :: rest) :
    step s = .next (resetRegisters s.popOp) :=
  step_of_ops h

/-- Settles O39: the values are those that `resetRegisters` writes (R156). -/
theorem resetWritesEveryRegister : Obligations.ResetWritesEveryRegister := fun _ _ hops =>
  ⟨_, step_reset hops, resetRegisters_cfg _, rfl, rfl, rfl, rfl, resetRegisters_status _⟩

/-- Settles O56: the head of the queue is popped and the inbound buffer emptied; no block register is in either update. -/
theorem discardTouchesOnlyTheTransport : Obligations.DiscardTouchesOnlyTheTransport := by
  intro s rest hops
  rw [step_of_ops hops, popOp_of_ops hops]
  rfl

end Sys2Proof.Machine
